-- ==== Sys2Proof/Word.lean ====
section
/-!
DEFINITION. The words, indices and records of the Huffman tree block (00_scope R6, R7, 10_state R20, R28).
Every value of the block is unsigned (R7), so a bit vector's `toNat` is the number the rules mean.
-/

namespace Sys2Proof

/-- One word of the command channel: `CMD`, `ARG`, `RSP` or `DATA` (30_encoding R80). -/
abbrev Word := BitVec 32

/-- One byte of a serialised word (20_memory R62). -/
abbrev Byte := BitVec 8

/-- A symbol, `SYM_W = 8` bits (00_scope R6). -/
abbrev Symbol := BitVec 8

/-- A count or a node frequency, `FREQ_W = 32` bits (00_scope R6). -/
abbrev Freq := BitVec 32

/-- A node index, `IDX_W = 9` bits (00_scope R6). -/
abbrev NodeIndex := BitVec 9

/-- A stored code vector, `CODE_W = 256` bits; bit `k` is digit `c_k` (00_scope R10). -/
abbrev CodeVector := BitVec 256

/-- One record of the node arena `NODE` (10_state R28). -/
structure Node where
  leaf  : Bool
  sym   : Symbol
  freq  : Freq
  left  : NodeIndex
  right : NodeIndex
  deriving DecidableEq, Repr, Inhabited

/-- One entry of `STACK`: a pending node and its depth (10_state R20, R37). -/
structure Pending where
  node  : NodeIndex
  depth : BitVec 8
  deriving DecidableEq, Repr, Inhabited

/-- The node arena, `MAX_NODES = 511` records (00_scope R6). -/
abbrev Arena := Vector Node 511

end Sys2Proof
end

