-- ==== Sys2Proof/Syntax.lean ====
section
/-!
DEFINITION. The fifteen commands, one constructor per row of opcode_table.json (30_encoding R87),
each with its operands at the widths of its format (R83, R84).
-/

namespace Sys2Proof

/-- A command with its operands. `count` is `ARG`, which only LOAD reads (30_encoding R84). -/
inductive Instr where
  /-- `NOP` (43_system R180). -/
  | nop
  /-- `CLEAR` (43_system R181). -/
  | clear
  /-- `LOAD sym, count` (40_builder R101). -/
  | load (sym : Symbol) (count : Freq)
  /-- `BUILD` (40_builder R110). -/
  | build
  /-- `GENCODES` (41_codegen R130). -/
  | gencodes
  /-- `LOOKUP sym` (41_codegen R135). -/
  | lookup (sym : Symbol)
  /-- `READCODE sym, k` (41_codegen R137). -/
  | readcode (sym : Symbol) (k : BitVec 3)
  /-- `NODEFREQ idx` (43_system R184). -/
  | nodefreq (idx : NodeIndex)
  /-- `NODELINK idx` (43_system R185). -/
  | nodelink (idx : NodeIndex)
  /-- `INFO sel` (43_system R183). -/
  | info (sel : BitVec 4)
  /-- `DECSTART` (42_decoder R151). -/
  | decstart
  /-- `DECBIT ch` (42_decoder R153). -/
  | decbit (ch : BitVec 8)
  /-- `DECRAW bit` (42_decoder R155). -/
  | decraw (bit : BitVec 1)
  /-- `DECROOT` (42_decoder R157). -/
  | decroot
  /-- `DECEND` (42_decoder R162). -/
  | decend
  deriving DecidableEq, Repr

end Sys2Proof
end

