-- ==== Sys2Proof/WellFormed.lean ====
section
/-!
DEFINITION. What is a well-formed command. The operands of `Instr` have the exact widths of their
fields, so an `Instr` cannot be ill-formed; what can be is a LINE, a mnemonic with operands written
as plain numbers, as the assembler syntax of 30_encoding R91 has it. A line is well-formed when it has
as many operands as its mnemonic takes and each fits its field (R83, R84).
-/

namespace Sys2Proof

/-- The mnemonics of 30_encoding R87. -/
inductive Mnemonic where
  | nop | clear | load | build | gencodes | lookup | readcode | nodefreq | nodelink | info
  | decstart | decbit | decraw | decroot | decend
  deriving DecidableEq, Repr

/-- The seven formats of 30_encoding R83. -/
inductive Format where
  | n | s | sk | x | q | c | b
  deriving DecidableEq, Repr

/-- The format of each mnemonic (30_encoding R87). -/
def Mnemonic.format : Mnemonic → Format
  | .nop => .n
  | .clear => .n
  | .load => .s
  | .build => .n
  | .gencodes => .n
  | .lookup => .s
  | .readcode => .sk
  | .nodefreq => .x
  | .nodelink => .x
  | .info => .q
  | .decstart => .n
  | .decbit => .c
  | .decraw => .b
  | .decroot => .n
  | .decend => .n

/-- The mnemonic of a command. -/
def Instr.mnemonic : Instr → Mnemonic
  | .nop => .nop
  | .clear => .clear
  | .load _ _ => .load
  | .build => .build
  | .gencodes => .gencodes
  | .lookup _ => .lookup
  | .readcode _ _ => .readcode
  | .nodefreq _ => .nodefreq
  | .nodelink _ => .nodelink
  | .info _ => .info
  | .decstart => .decstart
  | .decbit _ => .decbit
  | .decraw _ => .decraw
  | .decroot => .decroot
  | .decend => .decend

/-- The widths of the operands a line of the mnemonic takes, in the order of 30_encoding R91.
LOAD's second operand is `ARG` (R84). -/
def Mnemonic.operandWidths : Mnemonic → List Nat
  | .load => [8, 32]
  | .lookup => [8]
  | .readcode => [8, 3]
  | .nodefreq => [9]
  | .nodelink => [9]
  | .info => [4]
  | .decbit => [8]
  | .decraw => [1]
  | .nop | .clear | .build | .gencodes | .decstart | .decroot | .decend => []

/-- One assembler line: a mnemonic and its operands as numbers (30_encoding R91). -/
structure Line where
  mnemonic : Mnemonic
  operands : List Nat
  deriving DecidableEq, Repr

/-- Each operand fits its field, and there are as many operands as fields. -/
def operandsFit : List Nat → List Nat → Bool
  | [], [] => true
  | w :: ws, v :: vs => decide (v < 2 ^ w) && operandsFit ws vs
  | [], _ :: _ => false
  | _ :: _, [] => false

/-- A line is well-formed when its operands fit the fields of its mnemonic (30_encoding R83, R84, R91). -/
def Line.wellFormed (l : Line) : Bool := operandsFit l.mnemonic.operandWidths l.operands

/-- The line a command is written as (30_encoding R91). -/
def Instr.toLine (i : Instr) : Line :=
  match i with
  | .load sym count => ⟨.load, [sym.toNat, count.toNat]⟩
  | .lookup sym => ⟨.lookup, [sym.toNat]⟩
  | .readcode sym k => ⟨.readcode, [sym.toNat, k.toNat]⟩
  | .nodefreq idx => ⟨.nodefreq, [idx.toNat]⟩
  | .nodelink idx => ⟨.nodelink, [idx.toNat]⟩
  | .info sel => ⟨.info, [sel.toNat]⟩
  | .decbit ch => ⟨.decbit, [ch.toNat]⟩
  | .decraw bit => ⟨.decraw, [bit.toNat]⟩
  | .nop => ⟨.nop, []⟩
  | .clear => ⟨.clear, []⟩
  | .build => ⟨.build, []⟩
  | .gencodes => ⟨.gencodes, []⟩
  | .decstart => ⟨.decstart, []⟩
  | .decroot => ⟨.decroot, []⟩
  | .decend => ⟨.decend, []⟩

/-- A command is well-formed when the line it is written as is. -/
def Instr.wellFormed (i : Instr) : Bool := i.toLine.wellFormed

end Sys2Proof
end

