-- ==== Sys2Proof/Decode.lean ====
section
/-!
DEFINITION. The decoder of 30_encoding R88, total on every pair of words and on every list of bytes,
and after it the encoder, from the same opcode map (R87) and formats (R83).
-/

namespace Sys2Proof

/-- The opcode of each mnemonic (30_encoding R87). -/
def Mnemonic.opcode : Mnemonic → BitVec 8
  | .nop => 0x00
  | .clear => 0x01
  | .load => 0x02
  | .build => 0x03
  | .gencodes => 0x04
  | .lookup => 0x05
  | .readcode => 0x06
  | .nodefreq => 0x07
  | .nodelink => 0x08
  | .info => 0x09
  | .decstart => 0x10
  | .decbit => 0x11
  | .decraw => 0x12
  | .decroot => 0x13
  | .decend => 0x14

/-- All mnemonics, in the order of 30_encoding R87. -/
def allMnemonics : List Mnemonic :=
  [.nop, .clear, .load, .build, .gencodes, .lookup, .readcode, .nodefreq, .nodelink, .info,
   .decstart, .decbit, .decraw, .decroot, .decend]

/-- The mnemonic an opcode stands for, none for a reserved opcode (30_encoding R88, R89). -/
def mnemonicOf (opc : BitVec 8) : Option Mnemonic := allMnemonics.find? (fun m => m.opcode == opc)

/-- `reservedMask` of a format, over `CMD[23:0]` (30_encoding R88). -/
def reservedMask : Format → BitVec 24
  | .n => 0xFFFFFF
  | .s => 0xFFFF00
  | .sk => 0xFFF800
  | .x => 0xFFFE00
  | .q => 0xFFFFF0
  | .c => 0xFFFF00
  | .b => 0xFFFFFE

/-- `OPC = CMD[31:24]` (30_encoding R82). -/
def opcodeField (cmd : Word) : BitVec 8 := cmd.extractLsb' 24 8

/-- `CMD[23:0]` (30_encoding R82). -/
def operandField (cmd : Word) : BitVec 24 := cmd.extractLsb' 0 24

/-- `SYM`, and `CH` of format C: `CMD[7:0]` (30_encoding R83). -/
def symField (cmd : Word) : BitVec 8 := cmd.extractLsb' 0 8

/-- `K = CMD[10:8]` (30_encoding R83). -/
def kField (cmd : Word) : BitVec 3 := cmd.extractLsb' 8 3

/-- `IDX = CMD[8:0]` (30_encoding R83). -/
def idxField (cmd : Word) : BitVec 9 := cmd.extractLsb' 0 9

/-- `SEL = CMD[3:0]` (30_encoding R83). -/
def selField (cmd : Word) : BitVec 4 := cmd.extractLsb' 0 4

/-- `BIT = CMD[0]` (30_encoding R83). -/
def bitField (cmd : Word) : BitVec 1 := cmd.extractLsb' 0 1

/-- The command of a mnemonic with the fields of its format; `ARG` is read by LOAD alone
(30_encoding R83, R84). -/
def withFields (m : Mnemonic) (cmd arg : Word) : Instr :=
  match m with
  | .nop => .nop
  | .clear => .clear
  | .load => .load (symField cmd) arg
  | .build => .build
  | .gencodes => .gencodes
  | .lookup => .lookup (symField cmd)
  | .readcode => .readcode (symField cmd) (kField cmd)
  | .nodefreq => .nodefreq (idxField cmd)
  | .nodelink => .nodelink (idxField cmd)
  | .info => .info (selField cmd)
  | .decstart => .decstart
  | .decbit => .decbit (symField cmd)
  | .decraw => .decraw (bitField cmd)
  | .decroot => .decroot
  | .decend => .decend

/-- Why words are no command. The first two are the block's `IllegalCommand` (30_encoding R88, R89);
the last is a byte stream that ends inside a command. -/
inductive DecodeError where
  | reservedOpcode (opc : BitVec 8)
  | reservedBits (m : Mnemonic)
  | truncated
  deriving DecidableEq, Repr

/-- The decode procedure of 30_encoding R88. -/
def decode (cmd arg : Word) : Except DecodeError Instr :=
  match mnemonicOf (opcodeField cmd) with
  | none => .error (.reservedOpcode (opcodeField cmd))
  | some m =>
    if operandField cmd &&& reservedMask m.format = 0 then .ok (withFields m cmd arg)
    else .error (.reservedBits m)

/-- Four bytes of a byte-wide link as a word, least significant first (20_memory R62). -/
def wordOfBytes (b0 b1 b2 b3 : Byte) : Word := b3 ++ b2 ++ b1 ++ b0

/-- The bytes of a word on a byte-wide link, least significant first (20_memory R62). -/
def bytesOfWord (w : Word) : List Byte :=
  [w.extractLsb' 0 8, w.extractLsb' 8 8, w.extractLsb' 16 8, w.extractLsb' 24 8]

/-- The first command of a byte stream and the bytes after it: `CMD`, then `ARG` (30_encoding R90,
20_memory R62; that `CMD` goes first is the model's choice, log entry 12). -/
def decodeBytes : List Byte → Except DecodeError (Instr × List Byte)
  | c0 :: c1 :: c2 :: c3 :: a0 :: a1 :: a2 :: a3 :: rest =>
    match decode (wordOfBytes c0 c1 c2 c3) (wordOfBytes a0 a1 a2 a3) with
    | .ok i => .ok (i, rest)
    | .error e => .error e
  | _ => .error .truncated

/-- `CMD[23:0]` of a command: its fields at their places, every other bit 0 (30_encoding R83). -/
def Instr.fieldBits : Instr → BitVec 24
  | .load sym _ => 0#16 ++ sym
  | .lookup sym => 0#16 ++ sym
  | .readcode sym k => 0#13 ++ k ++ sym
  | .nodefreq idx => 0#15 ++ idx
  | .nodelink idx => 0#15 ++ idx
  | .info sel => 0#20 ++ sel
  | .decbit ch => 0#16 ++ ch
  | .decraw bit => 0#23 ++ bit
  | .nop => 0
  | .clear => 0
  | .build => 0
  | .gencodes => 0
  | .decstart => 0
  | .decroot => 0
  | .decend => 0

/-- `ARG` of a command: the count for LOAD and 0 otherwise (30_encoding R91). -/
def Instr.argWord : Instr → Word
  | .load _ count => count
  | .nop | .clear | .build | .gencodes | .lookup _ | .readcode _ _ | .nodefreq _ | .nodelink _ | .info _
  | .decstart | .decbit _ | .decraw _ | .decroot | .decend => 0

/-- `CMD = {OPC, fields}` with reserved bits 0, and `ARG` (30_encoding R82, R91). -/
def encode (i : Instr) : Word × Word := (i.mnemonic.opcode ++ i.fieldBits, i.argWord)

/-- The eight bytes of a command on a byte-wide link (20_memory R62). -/
def encodeBytes (i : Instr) : List Byte := bytesOfWord (encode i).1 ++ bytesOfWord (encode i).2

/-- The command of a line, its operands cut to the widths of their fields (30_encoding R84, R91). -/
def lineInstr (l : Line) : Option Instr :=
  match l.mnemonic, l.operands with
  | .nop, [] => some .nop
  | .clear, [] => some .clear
  | .load, [sym, count] => some (.load (BitVec.ofNat 8 sym) (BitVec.ofNat 32 count))
  | .build, [] => some .build
  | .gencodes, [] => some .gencodes
  | .lookup, [sym] => some (.lookup (BitVec.ofNat 8 sym))
  | .readcode, [sym, k] => some (.readcode (BitVec.ofNat 8 sym) (BitVec.ofNat 3 k))
  | .nodefreq, [idx] => some (.nodefreq (BitVec.ofNat 9 idx))
  | .nodelink, [idx] => some (.nodelink (BitVec.ofNat 9 idx))
  | .info, [sel] => some (.info (BitVec.ofNat 4 sel))
  | .decstart, [] => some .decstart
  | .decbit, [ch] => some (.decbit (BitVec.ofNat 8 ch))
  | .decraw, [bit] => some (.decraw (BitVec.ofNat 1 bit))
  | .decroot, [] => some .decroot
  | .decend, [] => some .decend
  | _, _ => none

/-- The command a line assembles to, none for an ill-formed line (30_encoding R91, log entry 11). -/
def Line.toInstr (l : Line) : Option Instr := if l.wellFormed then lineInstr l else none

/-- `CMD` of a table word: its low 32 bits, those at or above `nbits` being 0. -/
def tableCmd (nbits w : Nat) : Word := BitVec.ofNat 32 (w % 2 ^ nbits)

/-- `ARG` of a table word: the 32 bits above `CMD`, those at or above `nbits` being 0. -/
def tableArg (nbits w : Nat) : Word := BitVec.ofNat 32 (w % 2 ^ nbits / 2 ^ 32)

/-- The command the decoder reads from a table word, none where it answers `IllegalCommand`. -/
def decodeTableWord (nbits w : Nat) : Option Instr :=
  match decode (tableCmd nbits w) (tableArg nbits w) with
  | .ok i => some i
  | .error _ => none

end Sys2Proof
end

