-- ==== Sys2Proof/Config.lean ====
section
/-!
DEFINITION. What is fixed for this hardware (00_scope R6) and the free values: constants with no
equation, so that no proof can lean on what they are.
-/

namespace Sys2Proof.Config

/-- `ALPHA`: distinct symbols (00_scope R6). -/
def alpha : Nat := 256

/-- `MAX_LEAVES`: the most leaves a tree can have (00_scope R6). -/
def maxLeaves : Nat := 256

/-- `MAX_NODES`: node arena entries (00_scope R6). -/
def maxNodes : Nat := 511

/-- `MAX_CODE_LEN`: the longest code (00_scope R6). -/
def maxCodeLen : Nat := 255

/-- `HEAP_CAP`: min-heap entries (00_scope R6). -/
def heapCap : Nat := 256

/-- `STACK_CAP`: traversal stack entries (00_scope R6). -/
def stackCap : Nat := 256

/-- FREE VALUE (log entry 2). `LAT` of the `k`-th accepted command is one more than this: at least one
cycle and finite, and nothing else is known of it (30_encoding R81, 70_reset_and_hazards R238). -/
opaque extraLatency : Nat → Nat

/-- `LAT` of the `k`-th accepted command (00_scope R6). -/
def latency (k : Nat) : Nat := extraLatency k + 1

/-- FREE VALUE (log entry 4). What the arena gives at an index outside 0..510, which no state that
meets the invariants of 10_state R29 and R35 asks for. -/
opaque strayNode : Nat → Node

/-- FREE VALUE (log entry 4). What `HEAP` gives at a slot outside 0..255 (40_builder R106: never asked for). -/
opaque straySlot : Nat → NodeIndex

/-- FREE VALUE (log entry 4). What `STACK` gives at a slot outside 0..255 (41_codegen R133: never asked for). -/
opaque strayPending : Nat → Pending

end Sys2Proof.Config
end

