-- ==== Sys2Proof/Machine/State.lean ====
section
/-!
DEFINITION. The state of the block, every item of 10_state R20, as plain data, with what its channel
has sampled and what its host will drive; the state after reset (70_reset_and_hazards R230).
-/

namespace Sys2Proof.Machine

/-- `PHASE` (10_state R22): 0 is `LOADING`, 1 is `BUILT`. -/
inductive Phase where
  | loading
  | built
  deriving DecidableEq, Repr

/-- `DSTATE` (10_state R33). Its encoding 3 never occurs, so it has no constructor (log entry 13). -/
inductive DecoderState where
  | idle
  | active
  | failed
  deriving DecidableEq, Repr

/-- The error codes of 60_exceptions R200; codes 13..15 are never produced and have no constructor. -/
inductive ErrorCode where
  | ok
  | emptyInput
  | unknownSymbol
  | invalidBit
  | truncatedStream
  | nullTree
  | sequence
  | duplicateSymbol
  | zeroCount
  | freqOverflow
  | range
  | rootKind
  | illegalCommand
  deriving DecidableEq, Repr

/-- `HEAP` and `HSIZE` (10_state R36). -/
structure MinHeap where
  slots : Vector NodeIndex 256
  size  : BitVec 9
  deriving DecidableEq, Repr

/-- `STACK`, `SP` and `PATH` (10_state R37). -/
structure Walk where
  stack : Vector Pending 256
  sp    : BitVec 9
  path  : CodeVector
  deriving DecidableEq, Repr

/-- `CVALID`, `CLEN` and `CBITS` (10_state R31). -/
structure CodeTable where
  valid : Vector Bool 256
  len   : Vector (BitVec 8) 256
  bits  : Vector CodeVector 256
  deriving DecidableEq, Repr

/-- The input ports at one rising edge of `clk` (30_encoding R80). -/
structure Pins where
  rst      : Bool
  cmdValid : Bool
  cmdWord  : Word
  cmdArg   : Word
  rspReady : Bool
  deriving DecidableEq, Repr

/-- The output ports (30_encoding R80). `response` is `(rsp_word, rsp_data)` and stands only while
`rsp_valid` is 1, since the words are unspecified otherwise (R81, log entry 8). -/
structure Ports where
  cmdReady : Bool
  rspValid : Bool
  response : Option (Word × Word)
  deriving DecidableEq, Repr

/-- The command channel: `BUSY`, `RSPV` and the held response (10_state R38), the command words
sampled at acceptance and the cycles left of it (30_encoding R81, log entries 2 and 3), and the model's
own two fields: how many commands were accepted (log entry 2) and what the host drives at the coming
edges, the next one first (log entry 1). -/
structure Channel where
  busy     : Bool
  rspv     : Bool
  rsp      : Word
  data     : Word
  cmd      : Word
  arg      : Word
  wait     : Nat
  accepted : Nat
  host     : List Pins
  deriving DecidableEq, Repr

/-- The state of the block (10_state R20). -/
structure State where
  phase  : Phase
  nleaf  : BitVec 9
  nnode  : BitVec 9
  total  : Freq
  root   : NodeIndex
  seen   : Vector Bool 256
  node   : Arena
  tv     : Bool
  table  : CodeTable
  dstate : DecoderState
  cursor : NodeIndex
  queue  : MinHeap
  walk   : Walk
  chan   : Channel
  deriving DecidableEq, Repr

/-- Why the machine stops. The errors of 60_exceptions R200 are responses and none of them stands here
(R216). -/
inductive Fault where
  /-- Raised by GENCODES alone, when the walk of 41_codegen R131 has visited 511 nodes and has not
  ended: the arena under `ROOT` is then no tree, and the rules give the walk no end. SAFE: no state that
  meets 10_state R29 raises it (log entry 9). -/
  | brokenTree
  deriving DecidableEq, Repr

/-- Why an instruction is refused. Nothing of this block is refused (60_exceptions R216). -/
inductive Refusal where
  /-- Raised by an arm of `exec` whose instruction has no meaning yet; no arm raises it. SAFE. -/
  | notModelled (mnemonic : String)
  deriving DecidableEq, Repr

/-- The state after reset (70_reset_and_hazards R230). NODE, CLEN, CBITS, HEAP, STACK and PATH, which
the rule leaves unspecified, are 0 (log entry 5); so are the held response and the sampled command,
and the host is silent (log entry 6). -/
def State.reset : State where
  phase := .loading
  nleaf := 0
  nnode := 0
  total := 0
  root := 0
  seen := Vector.replicate 256 false
  node := Vector.replicate 511
    { leaf := false, sym := 0, freq := 0, left := 0, right := 0 }
  tv := false
  table :=
    { valid := Vector.replicate 256 false
      len := Vector.replicate 256 0
      bits := Vector.replicate 256 0 }
  dstate := .idle
  cursor := 0
  queue := { slots := Vector.replicate 256 0, size := 0 }
  walk := { stack := Vector.replicate 256 { node := 0, depth := 0 }, sp := 0, path := 0 }
  chan :=
    { busy := false, rspv := false, rsp := 0, data := 0
      cmd := 0, arg := 0, wait := 0, accepted := 0, host := [] }

end Sys2Proof.Machine
end

