-- ==== Sys2Proof/Machine/Ops.lean ====
section
/-!
DEFINITION. The named operations over the block's arrays (20_memory R60) and the two ways a command
ends: `respond` and `raise` (00_scope R8, 30_encoding R85, R86, 60_exceptions R202, R203).
-/

namespace Sys2Proof.Machine

/-- What a step or a command answers. -/
abbrev Result := Host.Outcome State Fault Refusal

/-- `NODE[i]` (10_state R28). An index outside the arena, which no state that meets R29 has, gives a
free value (log entry 4). -/
def nodeAt (a : Arena) (i : Nat) : Node := (a[i]?).getD (Config.strayNode i)

/-- `NODE[i] <- n`. A write outside the arena changes nothing (log entry 4). -/
def setNode (a : Arena) (i : Nat) (n : Node) : Arena := a.setIfInBounds i n

/-- `SEEN[sym]` (10_state R27), and `CVALID[sym]` (10_state R31): one bit per symbol. -/
def flagAt (v : Vector Bool 256) (sym : Symbol) : Bool := v[sym.toNat]'sym.isLt

/-- Set one symbol's bit. -/
def setFlag (v : Vector Bool 256) (sym : Symbol) : Vector Bool 256 := v.set sym.toNat true sym.isLt

/-- `CLEN[sym]` (10_state R31). -/
def lenAt (t : CodeTable) (sym : Symbol) : BitVec 8 := t.len[sym.toNat]'sym.isLt

/-- `CBITS[sym]` (10_state R31). -/
def bitsAt (t : CodeTable) (sym : Symbol) : CodeVector := t.bits[sym.toNat]'sym.isLt

/-- A leaf record of the arena: no children, filler zeros (10_state R28, 40_builder R101). -/
def leafNode (sym : Symbol) (count : Freq) : Node :=
  { leaf := true, sym := sym, freq := count, left := 0, right := 0 }

/-- An internal record over two children: no symbol, the sum of their frequencies
(10_state R28, 40_builder R110, R111). -/
def internalNode (a : Arena) (l r : NodeIndex) : Node :=
  { leaf := false, sym := 0, freq := (nodeAt a l.toNat).freq + (nodeAt a r.toNat).freq, left := l, right := r }

/-- The number an error code is carried as (60_exceptions R200). -/
def errorNumber : ErrorCode → BitVec 4
  | .ok => 0
  | .emptyInput => 1
  | .unknownSymbol => 2
  | .invalidBit => 3
  | .truncatedStream => 4
  | .nullTree => 5
  | .sequence => 6
  | .duplicateSymbol => 7
  | .zeroCount => 8
  | .freqOverflow => 9
  | .range => 10
  | .rootKind => 11
  | .illegalCommand => 12

/-- `RSP`: the opcode echo in [31:24], 0 in [23:4] and the error code in [3:0] (30_encoding R85). -/
def responseWord (opc : BitVec 8) (e : ErrorCode) : Word := opc ++ 0#20 ++ errorNumber e

/-- The response is offered and the command is over: `BUSY <- 0`, `RSPV <- 1` and the response words
are driven (30_encoding R81). Nothing else changes. -/
def State.reply (s : State) (opc : BitVec 8) (e : ErrorCode) (d : Word) : State :=
  { s with chan := { s.chan with busy := false, rspv := true, rsp := responseWord opc e, data := d } }

/-- `respond(d)`: the command ends with `OK` and `DATA = d` (00_scope R8). -/
def respond (m : Mnemonic) (d : Word) (s : State) : Result := .next (s.reply m.opcode .ok d)

/-- `raise e`: the command ends with the code `e` and `DATA = 0`, and nothing else changes
(00_scope R8, 30_encoding R86, 60_exceptions R202, R203). -/
def raise (m : Mnemonic) (e : ErrorCode) (s : State) : Result := .next (s.reply m.opcode e 0)

/-- A word that is no command: `IllegalCommand`, the opcode echoed even where it is unknown
(30_encoding R85, R88). -/
def raiseIllegal (s : State) : Result := .next (s.reply (opcodeField s.chan.cmd) .illegalCommand 0)

/-- `DATA` of a command that emits a symbol: `DATA[8] = 1` and the symbol in `DATA[7:0]`
(42_decoder R156). -/
def emitted (sym : Symbol) : Word := 0#23 ++ 1#1 ++ sym

/-- `PHASE <- BUILT` (40_builder R110). -/
def State.setBuilt (s : State) : State := { s with phase := .built }

/-- `DSTATE <- d` (42_decoder R151, R153, R162). -/
def State.setDstate (s : State) (d : DecoderState) : State := { s with dstate := d }

/-- `CURSOR <- n` (42_decoder R151, R152). -/
def State.setCursor (s : State) (n : NodeIndex) : State := { s with cursor := n }

end Sys2Proof.Machine
end

