-- ==== Sys2Proof/Machine/Channel.lean ====
section
/-!
DEFINITION. The command channel at one rising edge of `clk` (30_encoding R80, R81, 70_reset_and_hazards R230):
what the edge does, what it leaves, and what the output ports show.
-/

namespace Sys2Proof.Machine

/-- A silent host: every input 0. -/
def quietPins : Pins := { rst := false, cmdValid := false, cmdWord := 0, cmdArg := 0, rspReady := false }

/-- The input ports at the next edge. -/
def State.pins (s : State) : Pins := s.chan.host.headD quietPins

/-- The state with the next edge's inputs taken off the host's list. -/
def State.popPins (s : State) : State := { s with chan := { s.chan with host := s.chan.host.tail } }

/-- What one rising edge does. -/
inductive EdgeAction where
  /-- `rst = 1` (70_reset_and_hazards R230). -/
  | reset
  /-- The command in flight has cycles left (30_encoding R81). -/
  | count
  /-- The command in flight makes its state changes and responds (30_encoding R81). -/
  | perform
  /-- The offered response is taken (30_encoding R81). -/
  | take
  /-- The offered response is held (30_encoding R81, 60_exceptions R216). -/
  | hold
  /-- A command is accepted (30_encoding R81). -/
  | accept
  /-- Idle, and nothing is offered (60_exceptions R215). -/
  | idle
  deriving DecidableEq, Repr

/-- What the edge does, from the inputs and the interface state: reset dominates, a command in flight
goes on, an offered response stays until taken, and a command is accepted only when
`not BUSY and not RSPV` (30_encoding R80, R81, 70_reset_and_hazards R230). -/
def edgeAction (p : Pins) (c : Channel) : EdgeAction :=
  if p.rst then .reset
  else if c.busy then (if c.wait = 0 then .perform else .count)
  else if c.rspv then (if p.rspReady then .take else .hold)
  else if p.cmdValid then .accept
  else .idle

/-- `rst`: every item at its reset value, a command in flight abandoned (70_reset_and_hazards R230, R232). The
items R230 leaves unspecified take the values of `State.reset` (log entry 7); the host and the count of
acceptances, which are not the block's, stay. -/
def State.hardReset (s : State) : State :=
  { State.reset with
    chan := { State.reset.chan with accepted := s.chan.accepted, host := s.chan.host } }

/-- One cycle of the command in flight goes by. -/
def State.countDown (s : State) : State := { s with chan := { s.chan with wait := s.chan.wait - 1 } }

/-- The host takes the response: `RSPV <- 0` (30_encoding R81). -/
def State.takeResponse (s : State) : State := { s with chan := { s.chan with rspv := false } }

/-- A command is accepted: its words are sampled and `BUSY <- 1`. It performs `LAT` edges later, so
`LAT - 1` edges go by before that one (30_encoding R81). -/
def State.accept (s : State) (cmd arg : Word) : State :=
  { s with
    chan := { s.chan with
      busy := true, cmd := cmd, arg := arg
      wait := Config.latency s.chan.accepted - 1
      accepted := s.chan.accepted + 1 } }

/-- The command in flight, as the decoder reads it (30_encoding R88). -/
def State.fetched (s : State) : Except DecodeError Instr := decode s.chan.cmd s.chan.arg

/-- The output ports while the inputs are `p` (30_encoding R80, R81): `cmd_ready = not BUSY and not RSPV`,
`rsp_valid = RSPV`, and both 0 while `rst = 1` (70_reset_and_hazards R230). -/
def ports (p : Pins) (s : State) : Ports :=
  { cmdReady := !p.rst && !s.chan.busy && !s.chan.rspv
    rspValid := !p.rst && s.chan.rspv
    response := if !p.rst && s.chan.rspv then some (s.chan.rsp, s.chan.data) else none }

/-- The response taken at the next edge, if one is: `rsp_valid = 1` and `rsp_ready = 1` (30_encoding R81). -/
def State.takenResponse (s : State) : Option (Word × Word) :=
  if s.pins.rspReady then (ports s.pins s).response else none

/-- The host's list with `rst` low at the next edge. -/
def releaseReset : List Pins → List Pins
  | [] => []
  | p :: ps => { p with rst := false } :: ps

/-- A table word as the command in flight, to be performed at the next edge (log entry 14). -/
def State.loadWord (s : State) (nbits w : Nat) : State :=
  { s with
    chan := { s.chan with
      busy := true, rspv := false, wait := 0
      cmd := tableCmd nbits w, arg := tableArg nbits w
      host := releaseReset s.chan.host } }

end Sys2Proof.Machine
end

