-- ==== Sys2Proof/Machine/Heap.lean ====
section
/-!
DEFINITION. The priority queue of the tree builder, a binary min-heap in an array, with the sift-up insert and
the sift-down extract of 40_builder R103 and R104, keyed as 00_scope R9 says.
-/

namespace Sys2Proof.Machine

/-- `key(i) < key(j)`: by frequency, then by node index, both unsigned (00_scope R9). -/
def keyLt (a : Arena) (i j : NodeIndex) : Bool :=
  decide ((nodeAt a i.toNat).freq.toNat < (nodeAt a j.toNat).freq.toNat) ||
    (decide ((nodeAt a i.toNat).freq.toNat = (nodeAt a j.toNat).freq.toNat) && decide (i.toNat < j.toNat))

/-- `HEAP[i]`. A slot outside the heap's 256 gives a free value (log entry 4, 40_builder R106). -/
def slotAt (v : Vector NodeIndex 256) (i : Nat) : NodeIndex := (v[i]?).getD (Config.straySlot i)

/-- `HEAP[i] <- x`. A write outside the heap's 256 slots changes nothing (log entry 4). -/
def setSlot (v : Vector NodeIndex 256) (i : Nat) (x : NodeIndex) : Vector NodeIndex 256 := v.setIfInBounds i x

/-- `swap HEAP[i], HEAP[j]` (40_builder R103, R104). -/
def swapSlots (v : Vector NodeIndex 256) (i j : Nat) : Vector NodeIndex 256 :=
  setSlot (setSlot v i (slotAt v j)) j (slotAt v i)

/-- The loop of `HeapInsert` from slot `i` (40_builder R103). `i` turns at least halves each time round, so
`fuel = i` is never used up. -/
def siftUp (a : Arena) : (fuel i : Nat) → Vector NodeIndex 256 → Vector NodeIndex 256
  | 0, _, v => v
  | fuel + 1, i, v =>
    if i = 0 then v
    else if keyLt a (slotAt v i) (slotAt v ((i - 1) / 2)) then
      siftUp a fuel ((i - 1) / 2) (swapSlots v i ((i - 1) / 2))
    else v

/-- The slot `m` of one round of `HeapExtract`'s loop: of slot `i` and its children below `n`, the one of
least key (40_builder R104). -/
def leastSlot (a : Arena) (n i : Nat) (v : Vector NodeIndex 256) : Nat :=
  let m := if 2 * i + 1 < n ∧ keyLt a (slotAt v (2 * i + 1)) (slotAt v i) then 2 * i + 1 else i
  if 2 * i + 2 < n ∧ keyLt a (slotAt v (2 * i + 2)) (slotAt v m) then 2 * i + 2 else m

/-- The loop of `HeapExtract` from slot `i`, with `n = HSIZE` (40_builder R104). `i` grows each time round and
stays below `n`, so `fuel = n` is never used up. -/
def siftDown (a : Arena) (n : Nat) : (fuel i : Nat) → Vector NodeIndex 256 → Vector NodeIndex 256
  | 0, _, v => v
  | fuel + 1, i, v =>
    if leastSlot a n i v = i then v
    else siftDown a n fuel (leastSlot a n i v) (swapSlots v i (leastSlot a n i v))

/-- `HeapInsert(x)` (40_builder R103). -/
def heapInsert (a : Arena) (x : NodeIndex) (h : MinHeap) : MinHeap :=
  { slots := siftUp a h.size.toNat h.size.toNat (setSlot h.slots h.size.toNat x)
    size := h.size + 1 }

/-- `HeapExtract()`: the node of least key and the heap without it (40_builder R104). Called only when
`HSIZE ≥ 1`. -/
def heapExtract (a : Arena) (h : MinHeap) : NodeIndex × MinHeap :=
  let n := h.size - 1
  let moved := setSlot h.slots 0 (slotAt h.slots n.toNat)
  (slotAt h.slots 0,
    { slots := if 0 < n.toNat then siftDown a n.toNat n.toNat 0 moved else h.slots
      size := n })

/-- `HSIZE <- 0; for i in 0 .. n-1: HeapInsert(i)` (40_builder R110). -/
def fillHeap (a : Arena) (n : Nat) (h : MinHeap) : MinHeap :=
  (List.range n).foldl (fun q i => heapInsert a (BitVec.ofNat 9 i) q) { h with size := 0 }

/-- What the merge loop of BUILD works on: the arena, the queue, and `k`, the next arena index. -/
structure Builder where
  arena : Arena
  queue : MinHeap
  next  : Nat
  deriving DecidableEq, Repr

/-- One round of the merge loop: the two nodes of least key become the children of node `k`
(40_builder R110). -/
def mergeOnce (b : Builder) : Builder :=
  let first := heapExtract b.arena b.queue
  let second := heapExtract b.arena first.2
  let arena := setNode b.arena b.next (internalNode b.arena first.1 second.1)
  { arena := arena
    queue := heapInsert arena (BitVec.ofNat 9 b.next) second.2
    next := b.next + 1 }

/-- `while HSIZE > 1` (40_builder R110). Each round lowers `HSIZE` by one (R106), so `fuel = HSIZE` is
never used up. -/
def mergeLoop : (fuel : Nat) → Builder → Builder
  | 0, b => b
  | fuel + 1, b => if 1 < b.queue.size.toNat then mergeLoop fuel (mergeOnce b) else b

/-- The heap filled with the leaves and merged down to one node (40_builder R110). -/
def mergeAll (s : State) : Builder :=
  mergeLoop s.nleaf.toNat
    { arena := s.node, queue := fillHeap s.node s.nleaf.toNat s.queue, next := s.nleaf.toNat }

end Sys2Proof.Machine
end

