-- ==== Sys2Proof/Machine/Builder.lean ====
section
/-!
DEFINITION. The tree builder's commands, LOAD and BUILD (40_builder).
-/

namespace Sys2Proof.Machine

/-- The state changes of a successful LOAD: leaf `NLEAF`, `SEEN`, the two counts and the total
(40_builder R101). -/
def State.addLeaf (s : State) (sym : Symbol) (count : Freq) : State :=
  { s with
    node := setNode s.node s.nleaf.toNat (leafNode sym count)
    seen := setFlag s.seen sym
    nleaf := s.nleaf + 1
    nnode := s.nnode + 1
    total := s.total + count }

/-- LOAD: append one (symbol, count) leaf (40_builder R101). -/
def execLoad (sym : Symbol) (count : Freq) (s : State) : Result :=
  if s.phase ≠ .loading then raise .load .sequence s
  else if count = 0 then raise .load .zeroCount s
  else if flagAt s.seen sym then raise .load .duplicateSymbol s
  else if 0xFFFFFFFF < s.total.toNat + count.toNat then raise .load .freqOverflow s
  else respond .load (s.nleaf.setWidth 32) (s.addLeaf sym count)

/-- The state changes of a successful BUILD: the merged arena, `ROOT`, `NNODE` and `PHASE`
(40_builder R110). -/
def State.buildTree (s : State) : State :=
  let b := mergeAll s
  let last := heapExtract b.arena b.queue
  State.setBuilt
    { s with
      node := b.arena
      queue := last.2
      root := last.1
      nnode := BitVec.ofNat 9 b.next }

/-- BUILD: build the Huffman tree from the loaded leaves (40_builder R110). -/
def execBuild (s : State) : Result :=
  if s.phase ≠ .loading then raise .build .sequence s
  else if s.nleaf = 0 then raise .build .emptyInput s
  else respond .build (s.buildTree.root.setWidth 32) s.buildTree

end Sys2Proof.Machine
end

