-- ==== Sys2Proof/Machine/Flags.lean ====
section
/-!
DEFINITION. The status flags `PHASE`, `TV` and `DSTATE` (10_state R40) as the bits the `STATUS` register
shows (R39). The block has no arithmetic condition codes (R40).
-/

namespace Sys2Proof.Machine

/-- `PHASE` as a bit (10_state R20). -/
def phaseBit : Phase → BitVec 1
  | .loading => 0
  | .built => 1

/-- `DSTATE` as two bits (10_state R20). -/
def dstateBits : DecoderState → BitVec 2
  | .idle => 0
  | .active => 1
  | .failed => 2

/-- `TV` as a bit (10_state R20). -/
def tvBit (tv : Bool) : BitVec 1 := BitVec.ofBool tv

/-- `STATUS`: [0] `PHASE`, [1] `TV`, [3:2] `DSTATE`, the rest 0 (10_state R39, 43_system R183). -/
def statusWord (s : State) : Word := 0#28 ++ dstateBits s.dstate ++ tvBit s.tv ++ phaseBit s.phase

end Sys2Proof.Machine
end

