-- ==== Sys2Proof/Machine/Operands.lean ====
section
/-!
DEFINITION. What each operand of a command selects (30_encoding R84): a symbol its code-table entry, an index
its node, a selector its register, a bit character or a raw bit its digit.
-/

namespace Sys2Proof.Machine

/-- The digit a bit character stands for, `false` for left and `true` for right; none where the
character is not a bit character (42_decoder R154). -/
def digitOfChar (ch : BitVec 8) : Option Bool :=
  if ch = 0x30 then some false else if ch = 0x31 then some true else none

/-- The digit a raw bit stands for: 0 selects left and 1 selects right (42_decoder R155). -/
def digitOfBit (bit : BitVec 1) : Bool := bit == 1#1

/-- The register an `INFO` selector reads, none for 6..15 (10_state R39, 43_system R183). -/
def infoRegister (sel : BitVec 4) (s : State) : Option Word :=
  match sel.toNat with
  | 0 => some (statusWord s)
  | 1 => some (s.nleaf.setWidth 32)
  | 2 => some (s.nnode.setWidth 32)
  | 3 => some (s.root.setWidth 32)
  | 4 => some s.total
  | 5 => some (s.cursor.setWidth 32)
  | _ => none

/-- The node an index reads, none where `IDX >= NNODE` (43_system R184, R185). -/
def validNode (idx : NodeIndex) (s : State) : Option Node :=
  if s.nnode.toNat ≤ idx.toNat then none else some (nodeAt s.node idx.toNat)

/-- The length and digits of a symbol's code, none where `TV = 0` or `CVALID[SYM] = 0`
(41_codegen R135, R137, 10_state R30). -/
def codeEntry (sym : Symbol) (s : State) : Option (BitVec 8 × CodeVector) :=
  if s.tv && flagAt s.table.valid sym then some (lenAt s.table sym, bitsAt s.table sym) else none

/-- `CBITS[SYM][32*K + 31 : 32*K]` (41_codegen R137). -/
def codeWord (bits : CodeVector) (k : BitVec 3) : Word := bits.extractLsb' (32 * k.toNat) 32

/-- A node's links as one word: `LEFT` in [8:0], `RIGHT` in [17:9], `SYM` in [25:18], `LEAF` in [26]
(43_system R185). -/
def linkWord (n : Node) : Word := 0#5 ++ BitVec.ofBool n.leaf ++ n.sym ++ n.right ++ n.left

/-- The child a digit leads to: 0 is left and 1 is right (00_scope R10, 42_decoder R152). -/
def childOf (n : Node) (dir : Bool) : NodeIndex := if dir then n.right else n.left

end Sys2Proof.Machine
end

