-- ==== Sys2Proof/Machine/Traverse.lean ====
section
/-!
DEFINITION. `Traverse()`: the depth-first, left-first walk with a stack of pending right children and the
accumulated path (41_codegen R131).
-/

namespace Sys2Proof.Machine

/-- `STACK[i]`. A slot outside the stack's 256 gives a free value (log entry 4, 41_codegen R133). -/
def pendingAt (v : Vector Pending 256) (i : Nat) : Pending := (v[i]?).getD (Config.strayPending i)

/-- `PATH[k] <- digit` (41_codegen R131). -/
def setDigit (p : CodeVector) (k : Nat) (digit : Bool) : CodeVector :=
  if digit then p ||| BitVec.twoPow 256 k else p &&& ~~~(BitVec.twoPow 256 k)

/-- `STACK[SP] <- p; SP <- SP + 1` (41_codegen R131). A push past the stack's 256 slots stores nothing
(log entry 4). -/
def push (w : Walk) (p : Pending) : Walk :=
  { w with stack := w.stack.setIfInBounds w.sp.toNat p, sp := w.sp + 1 }

/-- `CVALID[s] <- 1; CLEN[s] <- d; CBITS[s] <- PATH & ((1 << d) - 1)` (41_codegen R131). -/
def recordCode (t : CodeTable) (sym : Symbol) (d : Nat) (path : CodeVector) : CodeTable :=
  { valid := setFlag t.valid sym
    len := t.len.set sym.toNat (BitVec.ofNat 8 d) sym.isLt
    bits := t.bits.set sym.toNat (path &&& ((1#256 <<< d) - 1#256)) sym.isLt }

/-- The loop of `Traverse()` standing on node `n` at depth `d`. Each round visits one node; `none` where
`fuel` nodes are visited and the walk has not ended (41_codegen R131, log entry 9). -/
def walkLoop (a : Arena) : (fuel : Nat) → (n : NodeIndex) → (d : Nat) → Walk → CodeTable →
    Option (Walk × CodeTable)
  | 0, _, _, _, _ => none
  | fuel + 1, n, d, w, t =>
    if (nodeAt a n.toNat).leaf then
      let t' := recordCode t (nodeAt a n.toNat).sym d w.path
      if w.sp = 0 then some (w, t')
      else
        let p := pendingAt w.stack (w.sp - 1).toNat
        walkLoop a fuel p.node p.depth.toNat
          { w with sp := w.sp - 1, path := setDigit w.path (p.depth.toNat - 1) true } t'
    else
      let w' := push w { node := (nodeAt a n.toNat).right, depth := BitVec.ofNat 8 (d + 1) }
      walkLoop a fuel (nodeAt a n.toNat).left (d + 1) { w' with path := setDigit w.path d false } t

/-- `Traverse()` from `ROOT`, with `CVALID` cleared first (41_codegen R131). A tree of 10_state R29 has at
most `MAX_NODES = 511` nodes, and the walk visits each once (70_reset_and_hazards R238). -/
def traverse (s : State) : Option (Walk × CodeTable) :=
  walkLoop s.node Config.maxNodes s.root 0 { s.walk with sp := 0 }
    { s.table with valid := Vector.replicate 256 false }

end Sys2Proof.Machine
end

