-- ==== Sys2Proof/Machine/Codegen.lean ====
section
/-!
DEFINITION. The code-table generator's commands, GENCODES, LOOKUP and READCODE (41_codegen).
-/

namespace Sys2Proof.Machine

/-- The state changes of a successful GENCODES: the table, the walk's own state and `TV`
(41_codegen R130). -/
def State.withCodes (s : State) (r : Walk × CodeTable) : State :=
  { s with walk := r.1, table := r.2, tv := true }

/-- GENCODES: build the code table from the tree (41_codegen R130). Where the arena is no tree the walk has
no end, and the machine stops (log entry 9). -/
def execGencodes (s : State) : Result :=
  if s.phase ≠ .built then raise .gencodes .nullTree s
  else
    match traverse s with
    | some r => respond .gencodes (s.nleaf.setWidth 32) (s.withCodes r)
    | none => .fault .brokenTree

/-- LOOKUP: return the length of a symbol's code (41_codegen R135). -/
def execLookup (sym : Symbol) (s : State) : Result :=
  match codeEntry sym s with
  | none => raise .lookup .unknownSymbol s
  | some (len, _) => respond .lookup (len.setWidth 32) s

/-- READCODE: return 32 digits of a symbol's code (41_codegen R137). -/
def execReadcode (sym : Symbol) (k : BitVec 3) (s : State) : Result :=
  match codeEntry sym s with
  | none => raise .readcode .unknownSymbol s
  | some (_, bits) => respond .readcode (codeWord bits k) s

end Sys2Proof.Machine
end

