-- ==== Sys2Proof/Machine/Decoder.lean ====
section
/-!
DEFINITION. The decoder's commands, DECSTART, DECBIT, DECRAW, DECROOT and DECEND (42_decoder).
-/

namespace Sys2Proof.Machine

/-- `NODE[ROOT]` (42_decoder R153, R155, R157). -/
def rootNode (s : State) : Node := nodeAt s.node s.root.toNat

/-- The child of the cursor's node a digit leads to (42_decoder R152). -/
def nextIndex (s : State) (dir : Bool) : NodeIndex := childOf (nodeAt s.node s.cursor.toNat) dir

/-- `WalkStep(dir)`, the move both digit commands share (42_decoder R152). -/
def walkStep (m : Mnemonic) (dir : Bool) (s : State) : Result :=
  if (nodeAt s.node (nextIndex s dir).toNat).leaf then
    respond m (emitted (nodeAt s.node (nextIndex s dir).toNat).sym) (s.setCursor s.root)
  else respond m 0 (s.setCursor (nextIndex s dir))

/-- DECSTART: open a decode stream (42_decoder R151). -/
def execDecstart (s : State) : Result :=
  if s.phase ≠ .built then raise .decstart .nullTree s
  else respond .decstart (s.root.setWidth 32) ((s.setCursor s.root).setDstate .active)

/-- DECBIT: consume one digit given as a bit character (42_decoder R153). -/
def execDecbit (ch : BitVec 8) (s : State) : Result :=
  if s.phase ≠ .built then raise .decbit .nullTree s
  else if s.dstate ≠ .active then raise .decbit .sequence s
  else if (rootNode s).leaf then raise .decbit .rootKind s
  else
    match digitOfChar ch with
    | some dir => walkStep .decbit dir s
    | none => raise .decbit .invalidBit (s.setDstate .failed)

/-- DECRAW: consume one digit given as a raw bit (42_decoder R155). -/
def execDecraw (bit : BitVec 1) (s : State) : Result :=
  if s.phase ≠ .built then raise .decraw .nullTree s
  else if s.dstate ≠ .active then raise .decraw .sequence s
  else if (rootNode s).leaf then raise .decraw .rootKind s
  else walkStep .decraw (digitOfBit bit) s

/-- DECROOT: emit the symbol of a one-leaf tree (42_decoder R157). -/
def execDecroot (s : State) : Result :=
  if s.phase ≠ .built then raise .decroot .nullTree s
  else if s.dstate ≠ .active then raise .decroot .sequence s
  else if (rootNode s).leaf then respond .decroot (emitted (rootNode s).sym) s
  else raise .decroot .rootKind s

/-- DECEND: close the decode stream (42_decoder R162). -/
def execDecend (s : State) : Result :=
  if s.phase ≠ .built then raise .decend .nullTree s
  else if s.dstate ≠ .active then raise .decend .sequence s
  else if s.cursor ≠ s.root then raise .decend .truncatedStream (s.setDstate .failed)
  else respond .decend 0 (s.setDstate .idle)

end Sys2Proof.Machine
end

