-- ==== Sys2Proof/Machine/System.lean ====
section
/-!
DEFINITION. The system and observation commands, NOP, CLEAR, INFO, NODEFREQ and NODELINK (43_system).
-/

namespace Sys2Proof.Machine

/-- NOP: do nothing (43_system R180). -/
def execNop (s : State) : Result := respond .nop 0 s

/-- The state changes of CLEAR. NODE, HEAP, STACK, PATH, CLEN and CBITS keep their stale contents
(43_system R181). -/
def State.cleared (s : State) : State :=
  { s with
    phase := .loading
    nleaf := 0
    nnode := 0
    total := 0
    root := 0
    seen := Vector.replicate 256 false
    tv := false
    table := { s.table with valid := Vector.replicate 256 false }
    dstate := .idle
    cursor := 0
    queue := { s.queue with size := 0 }
    walk := { s.walk with sp := 0 } }

/-- CLEAR: end the session (43_system R181). -/
def execClear (s : State) : Result := respond .clear 0 s.cleared

/-- INFO: read a status register (43_system R183). -/
def execInfo (sel : BitVec 4) (s : State) : Result :=
  match infoRegister sel s with
  | some v => respond .info v s
  | none => raise .info .range s

/-- NODEFREQ: read a node's frequency (43_system R184). -/
def execNodefreq (idx : NodeIndex) (s : State) : Result :=
  match validNode idx s with
  | some n => respond .nodefreq n.freq s
  | none => raise .nodefreq .range s

/-- NODELINK: read a node's kind, symbol and children (43_system R185). -/
def execNodelink (idx : NodeIndex) (s : State) : Result :=
  match validNode idx s with
  | some n => respond .nodelink (linkWord n) s
  | none => raise .nodelink .range s

end Sys2Proof.Machine
end

