-- ==== Sys2Proof/Machine/Dispatch.lean ====
section
/-!
DEFINITION. One arm per command (30_encoding R87), each a direct call of its meaning.
-/

namespace Sys2Proof.Machine

def exec (i : Instr) (s : State) : Host.Outcome State Fault Refusal :=
  match i with
  | .nop => Sys2Proof.Machine.execNop s
  | .clear => Sys2Proof.Machine.execClear s
  | .load sym count => Sys2Proof.Machine.execLoad sym count s
  | .build => Sys2Proof.Machine.execBuild s
  | .gencodes => Sys2Proof.Machine.execGencodes s
  | .lookup sym => Sys2Proof.Machine.execLookup sym s
  | .readcode sym k => Sys2Proof.Machine.execReadcode sym k s
  | .nodefreq idx => Sys2Proof.Machine.execNodefreq idx s
  | .nodelink idx => Sys2Proof.Machine.execNodelink idx s
  | .info sel => Sys2Proof.Machine.execInfo sel s
  | .decstart => Sys2Proof.Machine.execDecstart s
  | .decbit ch => Sys2Proof.Machine.execDecbit ch s
  | .decraw bit => Sys2Proof.Machine.execDecraw bit s
  | .decroot => Sys2Proof.Machine.execDecroot s
  | .decend => Sys2Proof.Machine.execDecend s

end Sys2Proof.Machine
end

