-- ==== Sys2Proof/Machine/Step.lean ====
section
/-!
DEFINITION. One step is one rising edge of `clk` (30_encoding R80, R81).
-/

namespace Sys2Proof.Machine

/-- The command in flight is decoded and performed; words that are no command are answered with
`IllegalCommand` (30_encoding R88). -/
def runCommand (s : State) : Host.Outcome State Fault Refusal :=
  match s.fetched with
  | .ok i => exec i s
  | .error _ => raiseIllegal s

/-- One rising edge: the host's inputs for it are taken off the list, and the edge does what the inputs and the
interface state say (30_encoding R81). -/
def step (s : State) : Host.Outcome State Fault Refusal :=
  match edgeAction s.pins s.chan with
  | .reset => .next s.popPins.hardReset
  | .perform => runCommand s.popPins
  | .count => .next s.popPins.countDown
  | .take => .next s.popPins.takeResponse
  | .hold => .next s.popPins
  | .accept => .next (s.popPins.accept s.pins.cmdWord s.pins.cmdArg)
  | .idle => .next s.popPins

/-- `s` with a table word as the command the next step performs (log entry 14). -/
def State.withFetchWord (s : State) (nbits w : Nat) : State := s.loadWord nbits w

end Sys2Proof.Machine
end

