-- ==== Sys2Proof/Machine/Assembler.lean ====
section
/-!
DEFINITION. The assembler of 30_encoding R91 and R92: lines, and pseudo-commands that expand to lines. The text
itself (quotes, commas, comments) is read outside the model (log entry 11).
-/

namespace Sys2Proof.Machine

/-- The register names `INFO` takes (30_encoding R92). -/
inductive InfoName where
  | status | nleaf | nnode | root | total | cursor
  deriving DecidableEq, Repr

/-- `INFO STATUS` .. `INFO CURSOR` mean `INFO 0` .. `INFO 5` (30_encoding R92). -/
def InfoName.selector : InfoName → Nat
  | .status => 0
  | .nleaf => 1
  | .nnode => 2
  | .root => 3
  | .total => 4
  | .cursor => 5

/-- A source line: a command, or a pseudo-command (30_encoding R91, R92). -/
inductive Source where
  | line (l : Line)
  | infoName (r : InfoName)
  | decstr (chars : List Byte)
  | loadtab (pairs : List (Nat × Nat))
  | decode (chars : List Byte)
  deriving DecidableEq, Repr

/-- `DECSTR`: one DECBIT per character, in order (30_encoding R92). -/
def expandChars (chars : List Byte) : List Line := chars.map (fun c => ⟨.decbit, [c.toNat]⟩)

/-- The lines a source line expands to (30_encoding R92). -/
def Source.expand : Source → List Line
  | .line l => [l]
  | .infoName r => [⟨.info, [r.selector]⟩]
  | .decstr chars => expandChars chars
  | .loadtab pairs => pairs.map (fun p => ⟨.load, [p.1, p.2]⟩)
  | .decode chars => ⟨.decstart, []⟩ :: (expandChars chars ++ [⟨.decend, []⟩])

/-- The commands of a list of lines, none where a line is ill-formed (30_encoding R91, log entry 11). -/
def linesToInstrs : List Line → Option (List Instr)
  | [] => some []
  | l :: ls =>
    match l.toInstr, linesToInstrs ls with
    | some i, some is => some (i :: is)
    | _, _ => none

/-- The `(CMD, ARG)` pairs a program assembles to (30_encoding R91). -/
def assemble (program : List Source) : Option (List (Word × Word)) :=
  match linesToInstrs (program.flatMap Source.expand) with
  | some is => some (is.map encode)
  | none => none

end Sys2Proof.Machine
end

