-- ==== Sys2Proof/Machine/Session.lean ====
section
/-!
DEFINITION. Runs of the block as the host sees them: the responses of a list of commands, each taken before the
next (70_reset_and_hazards R234, 20_memory R68), and the responses taken over a number of clock edges (00_scope R11).
-/

namespace Sys2Proof.Machine

/-- The responses `(RSP, DATA)` of a list of commands and the state after them, each response taken before the
next command; none where a command does not answer a next state. -/
def runInstrs : List Instr → State → Option (List (Word × Word) × State)
  | [], s => some ([], s)
  | i :: is, s =>
    match exec i s with
    | .next t =>
      match runInstrs is t.takeResponse with
      | some (rs, u) => some ((t.chan.rsp, t.chan.data) :: rs, u)
      | none => none
    | .fault _ => none
    | .refused _ => none

/-- The symbol a digit command's or DECROOT's response emits, if it emits one (42_decoder R156). -/
def emittedSymbol (r : Word × Word) : Option Symbol :=
  if r.2.getLsbD 8 then some (r.2.extractLsb' 0 8) else none

/-- `n` clock edges, stopping where a step stops. -/
def runEdges : Nat → State → Result
  | 0, s => .next s
  | n + 1, s =>
    match step s with
    | .next t => runEdges n t
    | .fault f => .fault f
    | .refused r => .refused r

/-- The observation of a run of `n` clock edges: the responses taken, in order (00_scope R11). -/
def observe : Nat → State → List (Word × Word)
  | 0, _ => []
  | n + 1, s =>
    s.takenResponse.toList ++
      match step s with
      | .next t => observe n t
      | .fault _ => []
      | .refused _ => []

/-- The host offers a command at one edge. -/
def offer (cmd arg : Word) : Pins :=
  { rst := false, cmdValid := true, cmdWord := cmd, cmdArg := arg, rspReady := false }

/-- The host is ready to take a response at one edge. -/
def ready : Pins := { quietPins with rspReady := true }

/-- The host asserts `rst` at one edge. -/
def resetPins : Pins := { quietPins with rst := true }

/-- The bit character of a digit (42_decoder R154). -/
def charOfDigit (d : Bool) : BitVec 8 := if d then 0x31 else 0x30

/-- The commands that send a list of digits as bit characters. -/
def sendChars (ds : List Bool) : List Instr := ds.map (fun d => .decbit (charOfDigit d))

/-- The commands that send a list of digits as raw bits. -/
def sendRaw (ds : List Bool) : List Instr := ds.map (fun d => .decraw (BitVec.ofBool d))

/-- The commands that load a frequency table in order and build its tree (40_builder R100). -/
def loadAll (table : List (Symbol × Freq)) : List Instr := table.map (fun p => .load p.1 p.2) ++ [.build]

end Sys2Proof.Machine
end

