-- ==== Sys2Proof/Safety.lean ====
section
/-!
DEFINITION. The words claims are stated in: the invariants of 10_state R29, R30, R32, R33, R35, R36 and R37, what two
states have in common, and the equivalent functions the rules give (40_builder R113, 41_codegen R132).
-/

namespace Sys2Proof.Machine

/-- The frequencies of the arena's first `n` nodes. -/
def freqs (a : Arena) (n : Nat) : List Nat := (List.range n).map (fun i => (nodeAt a i).freq.toNat)

/-- Node `p` has node `j` as a child. -/
def IsChild (a : Arena) (p j : Nat) : Prop := (nodeAt a p).left.toNat = j ∨ (nodeAt a p).right.toNat = j

/-- The counts go with the phase (10_state R22, R23, R24, R26). -/
structure CountsOk (s : State) : Prop where
  leaves_le : s.nleaf.toNat ≤ 256
  loading : s.phase = .loading → s.nnode = s.nleaf ∧ s.root = 0
  built : s.phase = .built →
    1 ≤ s.nleaf.toNat ∧ s.nnode.toNat = 2 * s.nleaf.toNat - 1 ∧ s.root.toNat = s.nnode.toNat - 1

/-- The loaded leaves (10_state R25, R27, R29). -/
structure LeavesOk (s : State) : Prop where
  shape : ∀ i, i < s.nleaf.toNat →
    (nodeAt s.node i).leaf = true ∧ 1 ≤ (nodeAt s.node i).freq.toNat ∧
      (nodeAt s.node i).left = 0 ∧ (nodeAt s.node i).right = 0
  distinct : ∀ i, i < s.nleaf.toNat → ∀ j, j < s.nleaf.toNat →
    (nodeAt s.node i).sym = (nodeAt s.node j).sym → i = j
  seen : ∀ sym, flagAt s.seen sym = true ↔ ∃ i, i < s.nleaf.toNat ∧ (nodeAt s.node i).sym = sym
  total : s.total.toNat = (freqs s.node s.nleaf.toNat).sum

/-- The built tree (10_state R29): internal records over lower indices, exact sums, single ownership. -/
structure TreeOk (s : State) : Prop where
  internal : ∀ i, s.nleaf.toNat ≤ i → i < s.nnode.toNat →
    (nodeAt s.node i).leaf = false ∧ (nodeAt s.node i).sym = 0 ∧
      (nodeAt s.node i).left.toNat < i ∧ (nodeAt s.node i).right.toNat < i ∧
      (nodeAt s.node i).left ≠ (nodeAt s.node i).right ∧
      (nodeAt s.node i).freq.toNat =
        (nodeAt s.node (nodeAt s.node i).left.toNat).freq.toNat +
          (nodeAt s.node (nodeAt s.node i).right.toNat).freq.toNat
  owned : ∀ j, j < s.root.toNat →
    ∃ p, (s.nleaf.toNat ≤ p ∧ p < s.nnode.toNat ∧ IsChild s.node p j) ∧
      ∀ q, s.nleaf.toNat ≤ q → q < s.nnode.toNat → IsChild s.node q j → q = p
  rootFree : ∀ p, s.nleaf.toNat ≤ p → p < s.nnode.toNat → ¬ IsChild s.node p s.root.toNat
  rootTotal : (nodeAt s.node s.root.toNat).freq = s.total

/-- The node a list of digits leads to from node `n`, none where a digit is left over at a leaf
(00_scope R10, 41_codegen R132). -/
def follow (a : Arena) : NodeIndex → List Bool → Option NodeIndex
  | n, [] => some n
  | n, d :: ds => if (nodeAt a n.toNat).leaf then none else follow a (childOf (nodeAt a n.toNat) d) ds

/-- The digits `c_0 .. c_(len-1)` of a stored code (00_scope R10). -/
def digits (bits : CodeVector) (len : Nat) : List Bool := (List.range len).map (fun k => bits.getLsbD k)

/-- The code the table holds for a symbol (10_state R31). -/
def codeOf (t : CodeTable) (sym : Symbol) : List Bool := digits (bitsAt t sym) (lenAt t sym).toNat

/-- The table's entry for a symbol is the path from `ROOT` to that symbol's leaf, with bits beyond the length 0
(10_state R31, R32, 41_codegen R132). -/
def HasLeafCode (s : State) (sym : Symbol) : Prop :=
  (∃ l, l.toNat < s.nleaf.toNat ∧ (nodeAt s.node l.toNat).sym = sym ∧
    follow s.node s.root (codeOf s.table sym) = some l) ∧
  ∀ k, (lenAt s.table sym).toNat ≤ k → (bitsAt s.table sym).getLsbD k = false

/-- The code table (10_state R30, R32). -/
structure TableOk (s : State) : Prop where
  empty : s.tv = false → ∀ sym, flagAt s.table.valid sym = false
  built : s.tv = true → s.phase = .built
  valid : s.tv = true → ∀ sym, flagAt s.table.valid sym = flagAt s.seen sym
  codes : ∀ sym, flagAt s.table.valid sym = true → HasLeafCode s sym

/-- The decoder (10_state R33, R35). The cursor's value in `LOADING` is R230's and R181's. -/
structure DecoderOk (s : State) : Prop where
  loading : s.phase = .loading → s.dstate = .idle ∧ s.cursor = 0
  active : s.dstate = .active →
    s.cursor = s.root ∨
      (s.nleaf.toNat ≤ s.cursor.toNat ∧ s.cursor.toNat < s.nnode.toNat ∧
        (nodeAt s.node s.cursor.toNat).leaf = false)

/-- The internal state between commands and the interface state (10_state R36, R37, R38). -/
structure RestOk (s : State) : Prop where
  queue : s.queue.size = 0
  stack : s.walk.sp = 0
  channel : ¬ (s.chan.busy = true ∧ s.chan.rspv = true)

/-- The invariants of 10_state, together. -/
structure State.Inv (s : State) : Prop where
  counts : CountsOk s
  leaves : LeavesOk s
  tree : s.phase = .built → TreeOk s
  table : TableOk s
  decoder : DecoderOk s
  rest : RestOk s

/-- `s` with a response `(rsp, data)` offered and everything else as it was. -/
def State.answered (s : State) (rsp data : Word) : State :=
  { s with chan := { s.chan with busy := false, rspv := true, rsp := rsp, data := data } }

/-- `t` is `s` but for the channel. -/
def SameBlock (s t : State) : Prop := { t with chan := s.chan } = s

/-- `t` offers the response `(rsp, data)`, and its channel is that of `s` otherwise. -/
def Answers (s t : State) (rsp data : Word) : Prop :=
  t.chan = { s.chan with busy := false, rspv := true, rsp := rsp, data := data }

/-- `t` and `s` agree on the tree: arena, counts, total, root and seen symbols. -/
def SameTree (s t : State) : Prop :=
  t.phase = s.phase ∧ t.nleaf = s.nleaf ∧ t.nnode = s.nnode ∧ t.total = s.total ∧ t.root = s.root ∧
    t.seen = s.seen ∧ t.node = s.node

/-- `t` and `s` agree on the code table. -/
def SameTable (s t : State) : Prop := t.tv = s.tv ∧ t.table = s.table

/-- `t` and `s` agree on the decoder. -/
def SameDecoder (s t : State) : Prop := t.dstate = s.dstate ∧ t.cursor = s.cursor

/-- `t` and `s` agree on the internal working state. -/
def SameInternal (s t : State) : Prop := t.queue = s.queue ∧ t.walk = s.walk

/-- `s` and `t` agree on all architectural state: what 10_state R20 marks "arch", the arena below `NNODE` and
the code entries that are valid. Nothing is said of the internal state, the stale entries and the
channel (10_state R42). -/
structure ArchEq (s t : State) : Prop where
  phase : s.phase = t.phase
  nleaf : s.nleaf = t.nleaf
  nnode : s.nnode = t.nnode
  total : s.total = t.total
  root : s.root = t.root
  seen : s.seen = t.seen
  nodes : ∀ i, i < s.nnode.toNat → nodeAt s.node i = nodeAt t.node i
  tv : s.tv = t.tv
  valid : s.table.valid = t.table.valid
  codes : ∀ sym, flagAt s.table.valid sym = true →
    lenAt s.table sym = lenAt t.table sym ∧ bitsAt s.table sym = bitsAt t.table sym
  dstate : s.dstate = t.dstate
  cursor : s.cursor = t.cursor

/-- The rows of the opcode table, each with its match and its mask over `CMD` (30_encoding R83, R87, R88;
opcode_table.json). -/
def opcodeRows : List (Mnemonic × Word × Word) :=
  [(.nop, 0x00000000, 0xFFFFFFFF), (.clear, 0x01000000, 0xFFFFFFFF), (.load, 0x02000000, 0xFFFFFF00),
   (.build, 0x03000000, 0xFFFFFFFF), (.gencodes, 0x04000000, 0xFFFFFFFF), (.lookup, 0x05000000, 0xFFFFFF00),
   (.readcode, 0x06000000, 0xFFFFF800), (.nodefreq, 0x07000000, 0xFFFFFE00),
   (.nodelink, 0x08000000, 0xFFFFFE00), (.info, 0x09000000, 0xFFFFFFF0),
   (.decstart, 0x10000000, 0xFFFFFFFF), (.decbit, 0x11000000, 0xFFFFFF00),
   (.decraw, 0x12000000, 0xFFFFFFFE), (.decroot, 0x13000000, 0xFFFFFFFF), (.decend, 0x14000000, 0xFFFFFFFF)]

/-- The error codes each command can raise once it is decoded (60_exceptions R201). -/
def allowedErrors : Mnemonic → List (BitVec 4)
  | .nop => []
  | .clear => []
  | .load => [6, 8, 7, 9]
  | .build => [6, 1]
  | .gencodes => [5]
  | .lookup => [2]
  | .readcode => [2]
  | .nodefreq => [10]
  | .nodelink => [10]
  | .info => [10]
  | .decstart => [5]
  | .decbit => [5, 6, 11, 3]
  | .decraw => [5, 6, 11]
  | .decroot => [5, 6, 11]
  | .decend => [5, 6, 4]

/-- `RSP[3:0]` of a state's held response (30_encoding R85). -/
def errOf (t : State) : BitVec 4 := t.chan.rsp.extractLsb' 0 4

/-- The heap is in min-heap order under the key (10_state R36). -/
def HeapOrdered (a : Arena) (h : MinHeap) : Prop :=
  ∀ i, 0 < i → i < h.size.toNat → keyLt a (slotAt h.slots ((i - 1) / 2)) (slotAt h.slots i) = true

/-- The node indices in the heap, `HEAP[0 .. HSIZE-1]` (10_state R36). -/
def heapContents (h : MinHeap) : List NodeIndex := (List.range h.size.toNat).map (slotAt h.slots)

/-- The member of least key of a set that has `m` (40_builder R113). -/
def leastOf (a : Arena) (m : NodeIndex) (w : List NodeIndex) : NodeIndex :=
  w.foldl (fun best j => if keyLt a j best then j else best) m

/-- The working set of 40_builder R113, merged without a heap: the least and the next least become the
children of node `k`, until one member is left. -/
def naiveMerge : (fuel : Nat) → Arena → List NodeIndex → Nat → Arena × List NodeIndex × Nat
  | 0, a, w, k => (a, w, k)
  | fuel + 1, a, w, k =>
    match w with
    | x :: y :: rest =>
      let first := leastOf a x (y :: rest)
      let others := (x :: y :: rest).erase first
      match others with
      | z :: zs =>
        let second := leastOf a z zs
        naiveMerge fuel (setNode a k (internalNode a first second))
          (others.erase second ++ [BitVec.ofNat 9 k]) (k + 1)
      | [] => (a, w, k)
    | _ => (a, w, k)

/-- BUILD without a heap: arena, working set (the root alone) and `NNODE` (40_builder R113). -/
def naiveBuild (s : State) : Arena × List NodeIndex × Nat :=
  naiveMerge s.nleaf.toNat s.node ((List.range s.nleaf.toNat).map (BitVec.ofNat 9)) s.nleaf.toNat

end Sys2Proof.Machine
end

