-- ==== Sys2Proof/Certificates/Slice0/Obligations.lean ====
section
/-!
DEFINITION. The statements for the provers, each from the numbered rules of spec/ it cites.
-/

open Sys2Proof Sys2Proof.Machine

/-! Encoding -/

/-- Command words written out from 30_encoding R83 and R87 decode to the commands they stand for. -/
def Obligations.SpecWordsDecode : Prop :=
  decode 0x02000061 0x00000002 = .ok (.load 0x61 2) ∧
  decode 0x06000102 0 = .ok (.readcode 0x02 1) ∧
  decode 0x08000004 0 = .ok (.nodelink 4) ∧
  decode 0x09000005 0 = .ok (.info 5) ∧
  decode 0x11000031 0 = .ok (.decbit 0x31) ∧
  decode 0x12000001 0 = .ok (.decraw 1) ∧
  decode 0x14000000 0 = .ok .decend ∧
  decode 0x06000861 0 = .error (.reservedBits .readcode) ∧
  decode 0x0A000000 0 = .error (.reservedOpcode 0x0A)

/-- Decoding the words, or the bytes, a well-formed command is encoded as gives the command back, at every value of
every operand (30_encoding R82, R83, R91, 20_memory R62; that `CMD` goes before `ARG` in bytes is log
entry 12). -/
def Obligations.DecodeUndoesEncode : Prop :=
  ∀ i : Instr, i.wellFormed = true →
    decode (encode i).1 (encode i).2 = .ok i ∧
    ∀ rest : List Byte, decodeBytes (encodeBytes i ++ rest) = .ok (i, rest)

/-- Every word that decodes is the encoding of what it decodes to: no bit of `CMD` is dropped. -/
def Obligations.DecodedWordIsItsEncoding : Prop :=
  ∀ (cmd arg : Word) (i : Instr), decode cmd arg = .ok i →
    (encode i).1 = cmd ∧ (i.mnemonic = .load → (encode i).2 = arg)

/-- A word decodes to a mnemonic exactly where it matches that mnemonic's row of the opcode table, and no word
matches two rows (30_encoding R87, R88). -/
def Obligations.DecodesExactlyTheOpcodeTable : Prop :=
  (∀ (cmd arg : Word) (m : Mnemonic),
    (∃ i, decode cmd arg = .ok i ∧ i.mnemonic = m) ↔
      ∃ row ∈ opcodeRows, row.1 = m ∧ cmd &&& row.2.2 = row.2.1) ∧
  opcodeRows.Pairwise (fun r q => ∀ cmd : Word, ¬ (cmd &&& r.2.2 = r.2.1 ∧ cmd &&& q.2.2 = q.2.1))

/-- Every command but LOAD ignores `ARG`, and LOAD takes it whole as its count (30_encoding R84). -/
def Obligations.OnlyLoadReadsArg : Prop :=
  (∀ cmd a b : Word, cmd.extractLsb' 24 8 ≠ 0x02 → decode cmd a = decode cmd b) ∧
  (∀ (cmd a : Word) (i : Instr), cmd.extractLsb' 24 8 = 0x02 → decode cmd a = .ok i →
    i = .load (cmd.extractLsb' 0 8) a)

/-- A command in flight whose opcode is reserved, or that has a reserved bit set, answers `IllegalCommand` with its
opcode echoed and `DATA = 0`, and changes nothing else (30_encoding R88, R89). -/
def Obligations.ReservedWordIsIllegalCommand : Prop :=
  ∀ s : State, s.pins.rst = false → s.chan.busy = true → s.chan.wait = 0 →
    (∀ row ∈ opcodeRows, s.chan.cmd &&& row.2.2 ≠ row.2.1) →
    step s = .next (s.popPins.answered (s.chan.cmd.extractLsb' 24 8 ++ 0x00000C#24) 0)

/-- A well-formed line, whose operands fit the fields of its mnemonic, assembles to the command it is the line of, whose
words decode to it (30_encoding R83, R84, R91). That an ill-formed line assembles to nothing, and that lines are
data, is the model's choice (log entry 11). -/
def Obligations.WellFormedLinesAssemble : Prop :=
  ∀ l : Line,
    (l.wellFormed = true →
      ∃ i, l.toInstr = some i ∧ i.toLine = l ∧ assemble [.line l] = some [encode i] ∧
        decode (encode i).1 (encode i).2 = .ok i) ∧
    (l.wellFormed = false → l.toInstr = none ∧ assemble [.line l] = none)

/-- The pseudo-commands, as data (log entry 11), assemble as 30_encoding R92 expands them. -/
def Obligations.PseudoCommandsExpand : Prop :=
  (assemble [.infoName .status] = some [(0x09000000, 0)] ∧ assemble [.infoName .nleaf] = some [(0x09000001, 0)] ∧
    assemble [.infoName .nnode] = some [(0x09000002, 0)] ∧ assemble [.infoName .root] = some [(0x09000003, 0)] ∧
    assemble [.infoName .total] = some [(0x09000004, 0)] ∧ assemble [.infoName .cursor] = some [(0x09000005, 0)]) ∧
  (∀ chars : List Byte,
    assemble [.decstr chars] = some (chars.map (fun c => encode (.decbit c))) ∧
    assemble [.decode chars] =
      some (encode .decstart :: (chars.map (fun c => encode (.decbit c)) ++ [encode .decend]))) ∧
  (∀ pairs : List (Symbol × Freq),
    assemble [.loadtab (pairs.map (fun p => (p.1.toNat, p.2.toNat)))] =
      some (pairs.map (fun p => encode (.load p.1 p.2))))

/-! The command channel and reset -/

/-- Where the words of the command in flight decode, the edge that ends its latency is the command's meaning, after
the edge's inputs are taken off the host's list (30_encoding R81, R88). -/
def Obligations.StepRunsDecodedCommand : Prop :=
  ∀ (s : State) (i : Instr), s.pins.rst = false → s.chan.busy = true → s.chan.wait = 0 →
    decode s.chan.cmd s.chan.arg = .ok i → step s = exec i s.popPins

/-- A table word placed as the command in flight runs at the very next edge, in a state that differs in the channel
alone (log entry 14). -/
def Obligations.StepRunsFetchedWord : Prop :=
  ∀ (s : State) (nbits w : Nat) (i : Instr), decodeTableWord nbits w = some i →
    step (s.withFetchWord nbits w) = exec i (s.withFetchWord nbits w).popPins ∧
    SameBlock s (s.withFetchWord nbits w).popPins

/-- `rst` at an edge dominates whatever the block was doing: no port offers anything, every item gets its reset
value, the command in flight is gone, and the next edge can accept a command (70_reset_and_hazards R230). -/
def Obligations.ResetDominatesEveryEdge : Prop :=
  ∀ s : State, s.pins.rst = true →
    (ports s.pins s).cmdReady = false ∧ (ports s.pins s).rspValid = false ∧
    ∃ t, step s = .next t ∧
      t.phase = .loading ∧ t.nleaf = 0 ∧ t.nnode = 0 ∧ t.total = 0 ∧ t.root = 0 ∧
      (∀ sym, flagAt t.seen sym = false) ∧ t.tv = false ∧ (∀ sym, flagAt t.table.valid sym = false) ∧
      t.dstate = .idle ∧ t.cursor = 0 ∧ t.queue.size = 0 ∧ t.walk.sp = 0 ∧
      t.chan.busy = false ∧ t.chan.rspv = false ∧
      (t.pins.rst = false → t.pins.cmdValid = true →
        ∃ u, step t = .next u ∧ u.chan.busy = true ∧ u.chan.cmd = t.pins.cmdWord ∧ u.chan.arg = t.pins.cmdArg)

/-- A command in flight, or a response not yet taken, at an edge with `rst = 1` is lost: nothing is taken at that edge,
the state is the reset state, and no response follows while no further command is offered
(70_reset_and_hazards R232). -/
def Obligations.ResetCutsTheCommandInFlight : Prop :=
  ∀ s : State, s.pins.rst = true → (s.chan.busy = true ∨ s.chan.rspv = true) →
    s.takenResponse = none ∧
    ∃ t, step s = .next t ∧ ArchEq t State.reset ∧ t.queue.size = 0 ∧ t.walk.sp = 0 ∧
      t.chan.busy = false ∧ t.chan.rspv = false ∧
      ∀ n : Nat, (∀ p ∈ t.chan.host.take n, p.cmdValid = false) → observe n t = []

/-- The reset state holds the values 70_reset_and_hazards R230 gives. -/
def Obligations.ResetStateHasSpecValues : Prop :=
  let s := State.reset
  s.phase = .loading ∧ s.nleaf = 0 ∧ s.nnode = 0 ∧ s.total = 0 ∧ s.root = 0 ∧
    (∀ sym, flagAt s.seen sym = false) ∧ s.tv = false ∧ (∀ sym, flagAt s.table.valid sym = false) ∧
    s.dstate = .idle ∧ s.cursor = 0 ∧ s.queue.size = 0 ∧ s.walk.sp = 0 ∧ s.chan.busy = false ∧ s.chan.rspv = false

/-- With `rst` low, `cmd_ready = not BUSY and not RSPV`, `rsp_valid = RSPV`, and the held words are offered exactly
while `RSPV` is 1. While `BUSY` or `RSPV` is 1 the block accepts no command. An offered response stays constant, and
the edge that takes it sets `RSPV` to 0 and changes nothing else (10_state R38, 30_encoding R80, R81; that the
ports give no words while `RSPV` is 0, where the spec leaves them unspecified, is log entry 8). -/
def Obligations.NothingAcceptedWhileBusyOrHeld : Prop :=
  ∀ s : State, s.pins.rst = false →
    ((ports s.pins s).cmdReady = true ↔ s.chan.busy = false ∧ s.chan.rspv = false) ∧
    (ports s.pins s).rspValid = s.chan.rspv ∧
    (s.chan.rspv = true → (ports s.pins s).response = some (s.chan.rsp, s.chan.data)) ∧
    (s.chan.rspv = false → (ports s.pins s).response = none) ∧
    ((s.chan.busy = true ∨ s.chan.rspv = true) →
      ∀ t, step s = .next t →
        t.chan.cmd = s.chan.cmd ∧ t.chan.arg = s.chan.arg ∧ t.chan.accepted = s.chan.accepted) ∧
    (s.chan.busy = false → s.chan.rspv = true →
      (s.pins.rspReady = true →
        s.takenResponse = some (s.chan.rsp, s.chan.data) ∧
        step s = .next { s with chan := { s.chan with rspv := false, host := s.chan.host.tail } }) ∧
      (s.pins.rspReady = false →
        s.takenResponse = none ∧
        step s = .next { s with chan := { s.chan with host := s.chan.host.tail } }))

/-- A host that does not take a response holds the block: any number of such edges changes nothing but the host's
own list (30_encoding R81, 60_exceptions R216, 70_reset_and_hazards R237). -/
def Obligations.ResponseHeldUntilTaken : Prop :=
  ∀ (n : Nat) (s : State), s.chan.busy = false → s.chan.rspv = true →
    (∀ p ∈ s.chan.host.take n, p.rst = false ∧ p.rspReady = false) →
    runEdges n s = .next { s with chan := { s.chan with host := s.chan.host.drop n } }

/-- A command offered to an idle block is accepted at that edge and performed exactly `LAT` edges later, whatever the
host drives meanwhile short of `rst`; `LAT` is a free value (log entry 2), at least 1 (30_encoding R81). -/
def Obligations.CommandPerformsAfterLatency : Prop :=
  ∀ (s : State) (p : Pins) (ps rest : List Pins),
    s.chan.busy = false → s.chan.rspv = false → s.chan.host = p :: (ps ++ rest) →
    p.rst = false → p.cmdValid = true →
    ps.length = Config.latency s.chan.accepted → (∀ q ∈ ps, q.rst = false) →
    1 ≤ Config.latency s.chan.accepted ∧
    runEdges (Config.latency s.chan.accepted + 1) s =
      runCommand { s with
        chan := { s.chan with
          busy := true, cmd := p.cmdWord, arg := p.cmdArg, wait := 0
          accepted := s.chan.accepted + 1, host := rest } }

/-- The whole handshake of one command is observed as exactly one response, that of the command, and leaves the block
idle, with the state the command made (00_scope R11, 30_encoding R81). `LAT` is a free value of the acceptance
count (log entry 2). -/
def Obligations.HandshakeGivesOneResponse : Prop :=
  ∀ (s t : State) (p r : Pins) (ps rest : List Pins),
    s.chan.busy = false → s.chan.rspv = false → s.chan.host = p :: (ps ++ r :: rest) →
    p.rst = false → p.cmdValid = true →
    ps.length = Config.latency s.chan.accepted → (∀ q ∈ ps, q.rst = false) →
    r.rst = false → r.rspReady = true →
    runCommand { s with
      chan := { s.chan with
        busy := true, cmd := p.cmdWord, arg := p.cmdArg, wait := 0
        accepted := s.chan.accepted + 1, host := r :: rest } } = .next t →
    observe (Config.latency s.chan.accepted + 2) s = [(t.chan.rsp, t.chan.data)] ∧
    runEdges (Config.latency s.chan.accepted + 2) s =
      .next { t with chan := { t.chan with busy := false, rspv := false, host := rest } }

/-- An idle block to which nothing is offered keeps all its state (60_exceptions R215). -/
def Obligations.IdleBlockKeepsItsState : Prop :=
  ∀ s : State, s.chan.busy = false → s.chan.rspv = false → s.pins.rst = false → s.pins.cmdValid = false →
    step s = .next s.popPins

/-- No response and no state change of a command depends on the channel: not on `BUSY`, `RSPV`, the words held,
the latency or what the host will do (00_scope R11, 10_state R38). -/
def Obligations.ResponseIgnoresChannel : Prop :=
  ∀ (i : Instr) (s t : State) (c : Channel), exec i s = .next t →
    exec i { s with chan := c } =
      .next { t with
        chan := { c with busy := false, rspv := true, rsp := t.chan.rsp, data := t.chan.data } }

/-! Invariants and rules of the whole machine -/

/-- The reset state meets the invariants (10_state R29 to R37). -/
def Obligations.ResetMeetsInvariants : Prop := State.reset.Inv

/-- Every edge keeps the invariants: the arena is the loaded leaves or a strict binary tree over them with exact
frequency sums, the code table is the tree's leaf paths, the decoder's cursor is the root or an internal
node, and the internal state is empty (10_state R29, R30, R32, R33, R35, R36, R37). -/
def Obligations.StepKeepsInvariants : Prop := ∀ s t : State, s.Inv → step s = .next t → t.Inv

/-- Every edge leaves `HSIZE = 0` and `SP = 0`, and never both `BUSY` and `RSPV` (10_state R36, R37, R38). -/
def Obligations.StepKeepsWorkingStateEmpty : Prop :=
  ∀ s t : State, s.nleaf.toNat ≤ 256 → RestOk s → step s = .next t → RestOk t

/-- Every command responds in every state: errors are responses and nothing stops the block. For GENCODES the arena
must be a tree, which the invariants say (60_exceptions R216; log entry 9). -/
def Obligations.EveryCommandResponds : Prop :=
  (∀ (i : Instr) (s : State), i ≠ .gencodes → ∃ t, exec i s = .next t) ∧
  (∀ s : State, s.Inv → ∃ t, exec .gencodes s = .next t)

/-- A command that answers an error leaves the block as it was and `DATA = 0`, except that `InvalidBit` (3) and
`TruncatedStream` (4) set `DSTATE` to `FAILED`; a word that is no command leaves it as it was too
(60_exceptions R203). -/
def Obligations.ErrorsChangeNothing : Prop :=
  (∀ (i : Instr) (s t : State), exec i s = .next t → errOf t ≠ 0 →
    t.chan.data = 0 ∧
    (if errOf t = 3 ∨ errOf t = 4 then SameBlock { s with dstate := .failed } t else SameBlock s t) ∧
    (errOf t = 3 → i.mnemonic = .decbit) ∧ (errOf t = 4 → i.mnemonic = .decend)) ∧
  (∀ s : State, (∀ i, s.fetched ≠ .ok i) →
    ∃ t, runCommand s = .next t ∧ errOf t ≠ 0 ∧ t.chan.data = 0 ∧ SameBlock s t)

/-- Every response has the error code in [3:0], 0 in [23:4] and the opcode in [31:24], the unknown one too, and
`DATA = 0` with an error (30_encoding R85, R86). -/
def Obligations.ResponseWordFormat : Prop :=
  (∀ (i : Instr) (s t : State), exec i s = .next t →
    t.chan.rspv = true ∧ t.chan.busy = false ∧
    t.chan.rsp.extractLsb' 24 8 = (encode i).1.extractLsb' 24 8 ∧ t.chan.rsp.extractLsb' 4 20 = 0 ∧
    (errOf t ≠ 0 → t.chan.data = 0)) ∧
  (∀ s : State, (∀ i, s.fetched ≠ .ok i) → ∃ t, runCommand s = .next t ∧
    t.chan.rspv = true ∧ t.chan.busy = false ∧
    t.chan.rsp.extractLsb' 24 8 = s.chan.cmd.extractLsb' 24 8 ∧ t.chan.rsp.extractLsb' 4 20 = 0 ∧
    errOf t = 12 ∧ t.chan.data = 0)

/-- A decoded command answers `OK` or one of the errors 60_exceptions R201 lists for it. -/
def Obligations.ErrorsPerCommand : Prop :=
  ∀ (i : Instr) (s t : State), exec i s = .next t → errOf t = 0 ∨ errOf t ∈ allowedErrors i.mnemonic

/-- In `BUILT` no command but CLEAR writes the tree; `PHASE` becomes `BUILT` by a BUILD that succeeds and `LOADING` by
CLEAR, and in no other way (10_state R22, 43_system R181). -/
def Obligations.TreeReadOnlyOnceBuilt : Prop :=
  ∀ (i : Instr) (s t : State), exec i s = .next t →
    (s.phase = .built → i ≠ .clear → SameTree s t) ∧
    (s.phase = .loading → (t.phase = .built ↔ i = .build ∧ errOf t = 0)) ∧
    (s.phase = .built → (t.phase = .loading ↔ i = .clear))

/-- No command other than GENCODES and CLEAR writes the code table, and the decoder never reads it
(41_codegen R138). -/
def Obligations.TableReadOnlyAndUnreadByDecoder : Prop :=
  (∀ (i : Instr) (s t : State), exec i s = .next t → i ≠ .gencodes → i ≠ .clear → SameTable s t) ∧
  (∀ (i : Instr) (s t : State) (v : Bool) (tb : CodeTable),
    i.mnemonic ∈ [Mnemonic.decstart, .decbit, .decraw, .decroot, .decend] → exec i s = .next t →
    exec i { s with tv := v, table := tb } = .next { t with tv := v, table := tb })

/-- LOOKUP and READCODE read only the code table: no part of the tree, the decoder or the internal state matters
to them (10_state R41). -/
def Obligations.LookupNeverReadsTree : Prop :=
  ∀ (i : Instr) (s u t : State), i.mnemonic ∈ [Mnemonic.lookup, .readcode] → exec i s = .next t →
    exec i { u with tv := s.tv, table := s.table } =
      .next ({ u with tv := s.tv, table := s.table }.answered t.chan.rsp t.chan.data)

/-- `DSTATE` moves only as 10_state R33 says, its encoding 3 never occurs, and outside `IDLE` a tree exists. -/
def Obligations.DecoderStateTransitions : Prop :=
  (∀ (i : Instr) (s t : State), exec i s = .next t →
    t.dstate =
      if errOf t = 3 ∨ errOf t = 4 then .failed
      else if i = .decstart ∧ errOf t = 0 then .active
      else if i = .decend ∧ errOf t = 0 then .idle
      else if i = .clear then .idle
      else s.dstate) ∧
  (∀ s t : State, s.pins.rst = true → step s = .next t → t.dstate = .idle) ∧
  (∀ s t : State, step s = .next t → t.dstate ≠ s.dstate →
    s.pins.rst = true ∨
      ∃ i, s.chan.busy = true ∧ s.chan.wait = 0 ∧ s.fetched = .ok i ∧ exec i s.popPins = .next t) ∧
  (∀ d : DecoderState, dstateBits d ≠ 3) ∧
  (∀ s : State, s.Inv → s.dstate ≠ .idle → s.phase = .built)

/-- The reading commands change no state, and repeating one returns the same response (20_memory R64). -/
def Obligations.ReadsHaveNoSideEffects : Prop :=
  ∀ (i : Instr) (s : State),
    i.mnemonic ∈ [Mnemonic.lookup, .readcode, .nodefreq, .nodelink, .info, .nop] →
    ∃ t, exec i s = .next t ∧ SameBlock s t ∧ exec i t = .next t

/-! The system commands -/

/-- NOP responds with 0 and changes nothing (43_system R180). -/
def Obligations.NopFollowsRule : Prop :=
  ∀ (s : State) (arg : Word), (∀ w, decode w arg = .ok .nop ↔ w = 0x00000000) ∧
    exec .nop s = .next (s.answered 0x00000000 0)

/-- CLEAR returns the session's state to its reset values, keeps the stale contents of the arrays, is legal in every
state, and twice is once (43_system R181). -/
def Obligations.ClearFollowsRule : Prop :=
  ∀ (s : State) (arg : Word), (∀ w, decode w arg = .ok .clear ↔ w = 0x01000000) ∧
    ∃ t, exec .clear s = .next t ∧ Answers s t 0x01000000 0 ∧
      t.phase = .loading ∧ t.nleaf = 0 ∧ t.nnode = 0 ∧ t.total = 0 ∧ t.root = 0 ∧
      (∀ sym, flagAt t.seen sym = false ∧ flagAt t.table.valid sym = false) ∧
      t.tv = false ∧ t.dstate = .idle ∧ t.cursor = 0 ∧ t.queue.size = 0 ∧ t.walk.sp = 0 ∧
      t.node = s.node ∧ t.queue.slots = s.queue.slots ∧ t.walk.stack = s.walk.stack ∧ t.walk.path = s.walk.path ∧
      t.table.len = s.table.len ∧ t.table.bits = s.table.bits ∧
      exec .clear t = .next t

/-- CLEAR and `rst` leave the same architectural state; CLEAR offers a response, and `rst` offers none and clears
`BUSY` and `RSPV` (43_system R182). -/
def Obligations.ClearEqualsHardReset : Prop :=
  ∀ s t r : State, exec .clear s = .next t → s.pins.rst = true → step s = .next r →
    ArchEq t r ∧ t.chan.rspv = true ∧ r.chan.rspv = false ∧ r.chan.busy = false

/-- INFO reads the status registers at selectors 0..5 and raises `Range` at 6..15 (43_system R183, 10_state R39). -/
def Obligations.InfoFollowsRule : Prop :=
  ∀ (s : State) (sel : BitVec 4) (arg : Word),
    (∀ w, decode w arg = .ok (.info sel) ↔ w = (0x09#8 ++ (0#20 ++ sel) : BitVec (8 + (20 + 4)))) ∧
    (sel = 0 → ∃ v : Word, exec (.info sel) s = .next (s.answered 0x09000000 v) ∧
      v.getLsbD 0 = decide (s.phase = .built) ∧ v.getLsbD 1 = s.tv ∧
      v.extractLsb' 2 2 = (match s.dstate with | .idle => 0#2 | .active => 1#2 | .failed => 2#2) ∧
      v.extractLsb' 4 28 = 0) ∧
    (sel = 1 → exec (.info sel) s = .next (s.answered 0x09000000 (BitVec.ofNat 32 s.nleaf.toNat))) ∧
    (sel = 2 → exec (.info sel) s = .next (s.answered 0x09000000 (BitVec.ofNat 32 s.nnode.toNat))) ∧
    (sel = 3 → exec (.info sel) s = .next (s.answered 0x09000000 (BitVec.ofNat 32 s.root.toNat))) ∧
    (sel = 4 → exec (.info sel) s = .next (s.answered 0x09000000 s.total)) ∧
    (sel = 5 → exec (.info sel) s = .next (s.answered 0x09000000 (BitVec.ofNat 32 s.cursor.toNat))) ∧
    (6 ≤ sel.toNat → exec (.info sel) s = .next (s.answered 0x0900000A 0))

/-- NODEFREQ reads a valid node's frequency in either phase and raises `Range` otherwise (43_system R184). -/
def Obligations.NodefreqFollowsRule : Prop :=
  ∀ (s : State) (idx : NodeIndex) (arg : Word),
    (∀ w, decode w arg = .ok (.nodefreq idx) ↔ w = (0x07#8 ++ (0#15 ++ idx) : BitVec (8 + (15 + 9)))) ∧
    (s.nnode.toNat ≤ idx.toNat → exec (.nodefreq idx) s = .next (s.answered 0x0700000A 0)) ∧
    (idx.toNat < s.nnode.toNat →
      exec (.nodefreq idx) s = .next (s.answered 0x07000000 (nodeAt s.node idx.toNat).freq))

/-- NODELINK reads a valid node's kind, symbol and children and raises `Range` otherwise (43_system R185). -/
def Obligations.NodelinkFollowsRule : Prop :=
  ∀ (s : State) (idx : NodeIndex) (arg : Word),
    (∀ w, decode w arg = .ok (.nodelink idx) ↔ w = (0x08#8 ++ (0#15 ++ idx) : BitVec (8 + (15 + 9)))) ∧
    (s.nnode.toNat ≤ idx.toNat → exec (.nodelink idx) s = .next (s.answered 0x0800000A 0)) ∧
    (idx.toNat < s.nnode.toNat →
      ∃ d : Word, exec (.nodelink idx) s = .next (s.answered 0x08000000 d) ∧
        d.extractLsb' 0 9 = (nodeAt s.node idx.toNat).left ∧ d.extractLsb' 9 9 = (nodeAt s.node idx.toNat).right ∧
        d.extractLsb' 18 8 = (nodeAt s.node idx.toNat).sym ∧ d.getLsbD 26 = (nodeAt s.node idx.toNat).leaf ∧
        d.extractLsb' 27 5 = 0)

/-! The builder -/

/-- LOAD: its errors in order, and the leaf it appends with what it leaves unchanged. The total never wraps and the
index never passes 255, which is why the invariants are assumed for the success (40_builder R101). -/
def Obligations.LoadFollowsRule : Prop :=
  ∀ (s : State) (sym : Symbol) (count : Freq),
    (∀ w arg, decode w arg = .ok (.load sym count) ↔ w = (0x02#8 ++ (0#16 ++ sym) : BitVec (8 + (16 + 8))) ∧ arg = count) ∧
    (s.phase ≠ .loading → exec (.load sym count) s = .next (s.answered 0x02000006 0)) ∧
    (s.phase = .loading → count = 0 → exec (.load sym count) s = .next (s.answered 0x02000008 0)) ∧
    (s.phase = .loading → count ≠ 0 → flagAt s.seen sym = true →
      exec (.load sym count) s = .next (s.answered 0x02000007 0)) ∧
    (s.phase = .loading → count ≠ 0 → flagAt s.seen sym = false → 0xFFFFFFFF < s.total.toNat + count.toNat →
      exec (.load sym count) s = .next (s.answered 0x02000009 0)) ∧
    (s.Inv → s.phase = .loading → count ≠ 0 → flagAt s.seen sym = false →
      s.total.toNat + count.toNat ≤ 0xFFFFFFFF →
      s.nleaf.toNat ≤ 255 ∧
      ∃ t, exec (.load sym count) s = .next t ∧ Answers s t 0x02000000 (BitVec.ofNat 32 s.nleaf.toNat) ∧
        nodeAt t.node s.nleaf.toNat = { leaf := true, sym := sym, freq := count, left := 0, right := 0 } ∧
        (∀ j, j ≠ s.nleaf.toNat → nodeAt t.node j = nodeAt s.node j) ∧
        flagAt t.seen sym = true ∧ (∀ other, other ≠ sym → flagAt t.seen other = flagAt s.seen other) ∧
        t.nleaf.toNat = s.nleaf.toNat + 1 ∧ t.nnode.toNat = s.nnode.toNat + 1 ∧
        t.total.toNat = s.total.toNat + count.toNat ∧
        t.phase = s.phase ∧ t.root = s.root ∧ SameTable s t ∧ SameDecoder s t ∧ SameInternal s t)

/-- BUILD: its errors in order, and where leaves are loaded it completes, with `DATA` the root; the leaves, the
counts, the table, the decoder and the traversal state are unchanged, and so is every arena record outside
the new nodes (40_builder R110). -/
def Obligations.BuildCompletes : Prop :=
  ∀ (s : State) (arg : Word), (∀ w, decode w arg = .ok .build ↔ w = 0x03000000) ∧
    (s.phase ≠ .loading → exec .build s = .next (s.answered 0x03000006 0)) ∧
    (s.phase = .loading → s.nleaf = 0 → exec .build s = .next (s.answered 0x03000001 0)) ∧
    (s.phase = .loading → 1 ≤ s.nleaf.toNat → s.nleaf.toNat ≤ 256 →
      ∃ t, exec .build s = .next t ∧ Answers s t 0x03000000 (BitVec.ofNat 32 t.root.toNat) ∧
        t.phase = .built ∧ t.nnode.toNat = 2 * s.nleaf.toNat - 1 ∧ t.queue.size = 0 ∧
        (∀ j, j < s.nleaf.toNat ∨ 2 * s.nleaf.toNat - 1 ≤ j → nodeAt t.node j = nodeAt s.node j) ∧
        t.nleaf = s.nleaf ∧ t.total = s.total ∧ t.seen = s.seen ∧ t.walk = s.walk ∧
        SameTable s t ∧ SameDecoder s t)

/-- A successful BUILD makes a strict binary tree over the loaded leaves: `NNODE = 2·NLEAF - 1`, `ROOT = 2·NLEAF - 2`,
every internal node over two lower nodes with the exact sum of their frequencies, every node but the root
owned once, and the root holding `TOTAL` (40_builder R111, R112, 10_state R29). -/
def Obligations.BuildMakesStrictTree : Prop :=
  ∀ s : State, s.Inv → s.phase = .loading → 1 ≤ s.nleaf.toNat →
    ∃ t, exec .build s = .next t ∧ errOf t = 0 ∧
      t.nnode.toNat = 2 * s.nleaf.toNat - 1 ∧ t.root.toNat = 2 * s.nleaf.toNat - 2 ∧
      t.chan.data.toNat = 2 * s.nleaf.toNat - 2 ∧
      (∀ j, j < s.nleaf.toNat → nodeAt t.node j = nodeAt s.node j) ∧ TreeOk t

/-- BUILD through the heap gives the same arena, `ROOT` and `NNODE` as the naive form that scans a working set for its
least and next least key (40_builder R113). -/
def Obligations.BuildIsNaiveMerge : Prop :=
  ∀ s : State, s.Inv → s.phase = .loading → 1 ≤ s.nleaf.toNat →
    ∃ t, exec .build s = .next t ∧
      (naiveBuild s).2.1 = [t.root] ∧ (naiveBuild s).2.2 = t.nnode.toNat ∧
      ∀ i, i < t.nnode.toNat → nodeAt (naiveBuild s).1 i = nodeAt t.node i

/-- With one leaf loaded, BUILD makes that leaf the root, and GENCODES gives its symbol the empty code
(40_builder R115, 41_codegen R134). -/
def Obligations.OneLeafTreeHasEmptyCode : Prop :=
  ∀ s : State, s.Inv → s.phase = .loading → s.nleaf = 1 →
    ∃ t u, exec .build s = .next t ∧ t.root = 0 ∧ t.nnode = 1 ∧ nodeAt t.node 0 = nodeAt s.node 0 ∧
      exec .gencodes t = .next u ∧ u.chan.data = 1 ∧
      flagAt u.table.valid (nodeAt s.node 0).sym = true ∧
      lenAt u.table (nodeAt s.node 0).sym = 0 ∧ bitsAt u.table (nodeAt s.node 0).sym = 0

/-- A node's key is its frequency, then its index, compared as unsigned numbers, so that of two different nodes exactly
one has the lesser key (00_scope R9). -/
def Obligations.KeysOrderNodes : Prop :=
  ∀ (a : Arena) (i j : NodeIndex),
    (keyLt a i j = true ↔
      (nodeAt a i.toNat).freq.toNat < (nodeAt a j.toNat).freq.toNat ∨
        (nodeAt a i.toNat).freq.toNat = (nodeAt a j.toNat).freq.toNat ∧ i.toNat < j.toNat) ∧
    (i ≠ j → (keyLt a i j = true ↔ keyLt a j i = false))

/-- `HeapInsert` keeps heap order and adds exactly its node (40_builder R103, 10_state R36). -/
def Obligations.HeapInsertKeepsOrder : Prop :=
  ∀ (a : Arena) (x : NodeIndex) (h : MinHeap), h.size.toNat < 256 → HeapOrdered a h → x ∉ heapContents h →
    HeapOrdered a (heapInsert a x h) ∧ (heapContents (heapInsert a x h)).Perm (x :: heapContents h)

/-- `HeapExtract` returns the node of least key in the heap, takes exactly it out, and keeps heap order
(40_builder R104, R105, 10_state R36). -/
def Obligations.HeapExtractTakesLeast : Prop :=
  ∀ (a : Arena) (h : MinHeap), 1 ≤ h.size.toNat → h.size.toNat ≤ 256 → HeapOrdered a h → (heapContents h).Nodup →
    (heapContents h).Perm ((heapExtract a h).1 :: heapContents (heapExtract a h).2) ∧
    (∀ y ∈ heapContents (heapExtract a h).2, keyLt a (heapExtract a h).1 y = true) ∧
    HeapOrdered a (heapExtract a h).2

/-! The code table -/

/-- GENCODES raises `NullTree` without a tree; on a tree it gives every loaded symbol the path to its leaf and no other
symbol a code, disturbs neither tree nor decoder, and repeated leaves the same table
(41_codegen R130, R132). -/
def Obligations.GencodesFollowsRule : Prop :=
  ∀ (s : State) (arg : Word), (∀ w, decode w arg = .ok .gencodes ↔ w = 0x04000000) ∧
    (s.phase ≠ .built → exec .gencodes s = .next (s.answered 0x04000005 0)) ∧
    (s.Inv → s.phase = .built →
      ∃ t, exec .gencodes s = .next t ∧ Answers s t 0x04000000 (BitVec.ofNat 32 s.nleaf.toNat) ∧
        t.tv = true ∧
        (∀ sym, flagAt t.table.valid sym = true ↔
          ∃ l, l < s.nleaf.toNat ∧ (nodeAt s.node l).sym = sym) ∧
        (∀ sym, flagAt t.table.valid sym = true → HasLeafCode t sym) ∧
        (∀ sym, flagAt t.table.valid sym = false →
          lenAt t.table sym = lenAt s.table sym ∧ bitsAt t.table sym = bitsAt s.table sym) ∧
        SameTree s t ∧ SameDecoder s t ∧ t.queue = s.queue ∧
        ∀ u, exec .gencodes t = .next u → SameTable t u)

/-- LOOKUP returns the length of a symbol's code, or `UnknownSymbol` (41_codegen R135). -/
def Obligations.LookupFollowsRule : Prop :=
  ∀ (s : State) (sym : Symbol) (arg : Word),
    (∀ w, decode w arg = .ok (.lookup sym) ↔ w = (0x05#8 ++ (0#16 ++ sym) : BitVec (8 + (16 + 8)))) ∧
    (s.tv = false ∨ flagAt s.table.valid sym = false →
      exec (.lookup sym) s = .next (s.answered 0x05000002 0)) ∧
    (s.tv = true → flagAt s.table.valid sym = true →
      exec (.lookup sym) s = .next (s.answered 0x05000000 (BitVec.ofNat 32 (lenAt s.table sym).toNat)))

/-- READCODE returns digits `32K .. 32K+31` of a symbol's code, first digit at bit 0 and 0 beyond the length, or
`UnknownSymbol` (41_codegen R137). -/
def Obligations.ReadcodeFollowsRule : Prop :=
  ∀ (s : State) (sym : Symbol) (k : BitVec 3) (arg : Word),
    (∀ w, decode w arg = .ok (.readcode sym k) ↔ w = (0x06#8 ++ (0#13 ++ k ++ sym) : BitVec (8 + (13 + 3 + 8)))) ∧
    (s.tv = false ∨ flagAt s.table.valid sym = false →
      exec (.readcode sym k) s = .next (s.answered 0x06000002 0)) ∧
    (s.tv = true → flagAt s.table.valid sym = true →
      ∃ d : Word, exec (.readcode sym k) s = .next (s.answered 0x06000000 d) ∧
        (∀ j, j < 32 → d.getLsbD j = (bitsAt s.table sym).getLsbD (32 * k.toNat + j)) ∧
        (s.Inv → ∀ j, j < 32 → (lenAt s.table sym).toNat ≤ 32 * k.toNat + j → d.getLsbD j = false))

/-- In every state that meets the invariants, no symbol's code is a prefix of another symbol's
(10_state R32, 40_builder R116). -/
def Obligations.CodesArePrefixFree : Prop :=
  ∀ s : State, s.Inv → ∀ x y : Symbol, flagAt s.table.valid x = true → flagAt s.table.valid y = true → x ≠ y →
    ¬ (codeOf s.table x <+: codeOf s.table y)

/-- No code is longer than one less than the number of leaves (10_state R29, 41_codegen R133). -/
def Obligations.CodeLengthBelowLeafCount : Prop :=
  ∀ s : State, s.Inv → ∀ sym : Symbol, flagAt s.table.valid sym = true →
    (lenAt s.table sym).toNat + 1 ≤ s.nleaf.toNat

/-- After BUILD and GENCODES, a symbol with a strictly higher count never has a strictly longer code than one with a
strictly lower count (40_builder R116). -/
def Obligations.MoreFrequentNeverLonger : Prop :=
  ∀ s t u : State, s.Inv → s.phase = .loading → exec .build s = .next t → exec .gencodes t = .next u →
    ∀ i j, i < s.nleaf.toNat → j < s.nleaf.toNat →
      (nodeAt s.node j).freq.toNat < (nodeAt s.node i).freq.toNat →
      (lenAt u.table (nodeAt s.node i).sym).toNat ≤ (lenAt u.table (nodeAt s.node j).sym).toNat

/-! The decoder -/

/-- DECSTART opens a stream in every `DSTATE` once a tree exists, and raises `NullTree` before (42_decoder R151). -/
def Obligations.DecstartFollowsRule : Prop :=
  ∀ (s : State) (arg : Word), (∀ w, decode w arg = .ok .decstart ↔ w = 0x10000000) ∧
    (s.phase ≠ .built → exec .decstart s = .next (s.answered 0x10000005 0)) ∧
    (s.phase = .built →
      exec .decstart s =
        .next ({ s with cursor := s.root, dstate := .active }.answered 0x10000000 (BitVec.ofNat 32 s.root.toNat)))

/-- DECBIT: its errors in order, `InvalidBit` entering `FAILED` with the cursor kept, and the walk: `'0'` to the left
child and `'1'` to the right, emitting at a leaf and returning to the root (42_decoder R153). -/
def Obligations.DecbitFollowsRule : Prop :=
  ∀ (s : State) (ch : BitVec 8) (arg : Word),
    (∀ w, decode w arg = .ok (.decbit ch) ↔ w = (0x11#8 ++ (0#16 ++ ch) : BitVec (8 + (16 + 8)))) ∧
    (s.phase ≠ .built → exec (.decbit ch) s = .next (s.answered 0x11000005 0)) ∧
    (s.phase = .built → s.dstate ≠ .active → exec (.decbit ch) s = .next (s.answered 0x11000006 0)) ∧
    (s.phase = .built → s.dstate = .active → (nodeAt s.node s.root.toNat).leaf = true →
      exec (.decbit ch) s = .next (s.answered 0x1100000B 0)) ∧
    (s.phase = .built → s.dstate = .active → (nodeAt s.node s.root.toNat).leaf = false →
      (ch ≠ 0x30 → ch ≠ 0x31 →
        exec (.decbit ch) s = .next ({ s with dstate := .failed }.answered 0x11000003 0)) ∧
      ∀ n : NodeIndex,
        (ch = 0x30 ∧ n = (nodeAt s.node s.cursor.toNat).left ∨
          ch = 0x31 ∧ n = (nodeAt s.node s.cursor.toNat).right) →
        ((nodeAt s.node n.toNat).leaf = true →
          exec (.decbit ch) s = .next ({ s with cursor := s.root }.answered 0x11000000
            (0x00000100 ||| (nodeAt s.node n.toNat).sym.setWidth 32))) ∧
        ((nodeAt s.node n.toNat).leaf = false →
          exec (.decbit ch) s = .next ({ s with cursor := n }.answered 0x11000000 0)))

/-- DECRAW: its errors in order, and the same walk with 0 for left and 1 for right; its effects are those of
DECBIT with the same digit (42_decoder R155). -/
def Obligations.DecrawFollowsRule : Prop :=
  ∀ (s : State) (bit : BitVec 1) (arg : Word),
    (∀ w, decode w arg = .ok (.decraw bit) ↔ w = (0x12#8 ++ (0#23 ++ bit) : BitVec (8 + (23 + 1)))) ∧
    (s.phase ≠ .built → exec (.decraw bit) s = .next (s.answered 0x12000005 0)) ∧
    (s.phase = .built → s.dstate ≠ .active → exec (.decraw bit) s = .next (s.answered 0x12000006 0)) ∧
    (s.phase = .built → s.dstate = .active → (nodeAt s.node s.root.toNat).leaf = true →
      exec (.decraw bit) s = .next (s.answered 0x1200000B 0)) ∧
    (s.phase = .built → s.dstate = .active → (nodeAt s.node s.root.toNat).leaf = false →
      ∀ n : NodeIndex,
        n = (if bit = 0 then (nodeAt s.node s.cursor.toNat).left else (nodeAt s.node s.cursor.toNat).right) →
        ((nodeAt s.node n.toNat).leaf = true →
          exec (.decraw bit) s = .next ({ s with cursor := s.root }.answered 0x12000000
            (0x00000100 ||| (nodeAt s.node n.toNat).sym.setWidth 32))) ∧
        ((nodeAt s.node n.toNat).leaf = false →
          exec (.decraw bit) s = .next ({ s with cursor := n }.answered 0x12000000 0))) ∧
    (∀ t u, exec (.decraw bit) s = .next t → exec (.decbit (if bit = 0 then 0x30 else 0x31)) s = .next u →
      SameBlock t u ∧ t.chan.data = u.chan.data ∧ errOf t = errOf u)

/-- DECROOT emits the symbol of a one-leaf tree, consuming no digit, and raises its errors in order
(42_decoder R157). -/
def Obligations.DecrootFollowsRule : Prop :=
  ∀ (s : State) (arg : Word), (∀ w, decode w arg = .ok .decroot ↔ w = 0x13000000) ∧
    (s.phase ≠ .built → exec .decroot s = .next (s.answered 0x13000005 0)) ∧
    (s.phase = .built → s.dstate ≠ .active → exec .decroot s = .next (s.answered 0x13000006 0)) ∧
    (s.phase = .built → s.dstate = .active → (nodeAt s.node s.root.toNat).leaf = false →
      exec .decroot s = .next (s.answered 0x1300000B 0)) ∧
    (s.phase = .built → s.dstate = .active → (nodeAt s.node s.root.toNat).leaf = true →
      exec .decroot s = .next (s.answered 0x13000000
        (0x00000100 ||| (nodeAt s.node s.root.toNat).sym.setWidth 32)))

/-- DECEND closes a stream at the root, and otherwise raises `TruncatedStream` and enters `FAILED` with the cursor
kept (42_decoder R162). -/
def Obligations.DecendFollowsRule : Prop :=
  ∀ (s : State) (arg : Word), (∀ w, decode w arg = .ok .decend ↔ w = 0x14000000) ∧
    (s.phase ≠ .built → exec .decend s = .next (s.answered 0x14000005 0)) ∧
    (s.phase = .built → s.dstate ≠ .active → exec .decend s = .next (s.answered 0x14000006 0)) ∧
    (s.phase = .built → s.dstate = .active → s.cursor ≠ s.root →
      exec .decend s = .next ({ s with dstate := .failed }.answered 0x14000004 0)) ∧
    (s.phase = .built → s.dstate = .active → s.cursor = s.root →
      exec .decend s = .next ({ s with dstate := .idle }.answered 0x14000000 0))

/-- A stream error is fatal: `InvalidBit` and `TruncatedStream` leave `FAILED`, in which every digit, root and end
command raises `Sequence` and changes nothing, and every other command but DECSTART and CLEAR leaves `FAILED`
in place; those two leave it (42_decoder R159). -/
def Obligations.StreamErrorsAreFatal : Prop :=
  (∀ (i : Instr) (s t : State), exec i s = .next t → (errOf t = 3 ∨ errOf t = 4) → t.dstate = .failed) ∧
  (∀ (i : Instr) (s : State), s.phase = .built → s.dstate = .failed →
    i.mnemonic ∈ [Mnemonic.decbit, .decraw, .decroot, .decend] →
    ∃ t, exec i s = .next t ∧ errOf t = 6 ∧ t.chan.data = 0 ∧ SameBlock s t) ∧
  (∀ (i : Instr) (s t : State), s.phase = .built → s.dstate = .failed → exec i s = .next t →
    (t.dstate = .failed ↔ i ≠ .decstart ∧ i ≠ .clear))

/-- Round trip. On a tree of two or more leaves, the digits of a sequence of coded symbols, sent between DECSTART and
DECEND, emit exactly that sequence and DECEND succeeds; on the one-leaf tree DECROOT, sent once per symbol,
does (42_decoder R160). -/
def Obligations.DecodingInvertsEncoding : Prop :=
  ∀ (s : State) (syms : List Symbol), s.Inv → s.tv = true →
    (∀ sym ∈ syms, flagAt s.table.valid sym = true) →
    ((nodeAt s.node s.root.toNat).leaf = false →
      ∃ first mids u,
        runInstrs (.decstart :: (sendChars (syms.flatMap (codeOf s.table)) ++ [.decend])) s =
          some (first :: (mids ++ [(0x14000000, 0)]), u) ∧
        mids.filterMap emittedSymbol = syms) ∧
    ((nodeAt s.node s.root.toNat).leaf = true →
      ∃ first mids u,
        runInstrs (.decstart :: (List.replicate syms.length .decroot ++ [.decend])) s =
          some (first :: (mids ++ [(0x14000000, 0)]), u) ∧
        mids.map emittedSymbol = syms.map some)

/-! What a response can depend on -/

/-- No response, and no architectural state after a command, depends on the internal state, on stale arena records, on
table entries that are not valid, or on the channel: two states that agree on the architectural state answer
every command alike and agree again (10_state R42). -/
def Obligations.InternalStateUnobservable : Prop :=
  ∀ (i : Instr) (s t s' : State), s.Inv → t.Inv → ArchEq s t → exec i s = .next s' →
    ∃ t', exec i t = .next t' ∧ t'.chan.rsp = s'.chan.rsp ∧ t'.chan.data = s'.chan.data ∧ ArchEq s' t'

/-- The state after reset is that of an empty session, and so is every state that agrees with it on the
architectural state: INFO reads 0, lookups, node reads, GENCODES, the decoder and BUILD raise their errors,
and LOAD of a nonzero count succeeds (70_reset_and_hazards R231). -/
def Obligations.EmptySessionAfterReset : Prop :=
  ∀ s : State, ArchEq s State.reset →
    (∀ sel : BitVec 4, sel.toNat ≤ 5 → exec (.info sel) s = .next (s.answered 0x09000000 0)) ∧
    (∀ sym : Symbol, exec (.lookup sym) s = .next (s.answered 0x05000002 0)) ∧
    (∀ (sym : Symbol) (k : BitVec 3), exec (.readcode sym k) s = .next (s.answered 0x06000002 0)) ∧
    (∀ idx : NodeIndex, exec (.nodefreq idx) s = .next (s.answered 0x0700000A 0) ∧
      exec (.nodelink idx) s = .next (s.answered 0x0800000A 0)) ∧
    exec .gencodes s = .next (s.answered 0x04000005 0) ∧
    exec .decstart s = .next (s.answered 0x10000005 0) ∧
    (∀ ch : BitVec 8, exec (.decbit ch) s = .next (s.answered 0x11000005 0)) ∧
    (∀ bit : BitVec 1, exec (.decraw bit) s = .next (s.answered 0x12000005 0)) ∧
    exec .decroot s = .next (s.answered 0x13000005 0) ∧
    exec .decend s = .next (s.answered 0x14000005 0) ∧
    exec .build s = .next (s.answered 0x03000001 0) ∧
    (∀ (sym : Symbol) (count : Freq), count ≠ 0 →
      ∃ t, exec (.load sym count) s = .next t ∧ t.chan.rsp = 0x02000000 ∧ t.nleaf = 1)
end

