-- ==== Sys2Proof/Laws/Decode.lean ====
section
/-!
SUPPORT. The small lemmas of the decoder and the encoder: a word `{OPC, fields}` gives back its opcode and its
fields, an opcode its mnemonic, and the bytes of a word the word.
-/

namespace Sys2Proof

/-- Every opcode stands for its own mnemonic (30_encoding R87). -/
@[simp] theorem mnemonicOf_opcode (m : Mnemonic) : mnemonicOf m.opcode = some m := by
  cases m <;> decide

/-- A mnemonic is read only from its own opcode (30_encoding R87, R88). -/
theorem opcode_of_mnemonicOf {opc : BitVec 8} {m : Mnemonic} (h : mnemonicOf opc = some m) : m.opcode = opc := by
  have := List.find?_some h
  simpa using this

/-- `CMD[31:24]` of `{OPC, fields}` is `OPC` (30_encoding R82). -/
@[simp] theorem opcodeField_append (opc : BitVec 8) (f : BitVec 24) : opcodeField (opc ++ f) = opc := by
  show (opc ++ f : BitVec (8 + 24)).extractLsb' 24 8 = opc
  ext i hi
  simp only [BitVec.getElem_extractLsb', BitVec.getLsbD_append]
  simp [hi]

/-- `CMD[23:0]` of `{OPC, fields}` is the fields (30_encoding R82). -/
@[simp] theorem operandField_append (opc : BitVec 8) (f : BitVec 24) : operandField (opc ++ f) = f := by
  show (opc ++ f : BitVec (8 + 24)).extractLsb' 0 24 = f
  ext i hi
  simp only [BitVec.getElem_extractLsb', BitVec.getLsbD_append]
  simp [hi]

/-- A word is its opcode and its `CMD[23:0]`. -/
theorem opcode_append_operand (cmd : Word) : (opcodeField cmd ++ operandField cmd : BitVec (8 + 24)) = cmd := by
  refine BitVec.eq_of_getLsbD_eq fun i hi => ?_
  simp only [BitVec.getLsbD_append, opcodeField, operandField, BitVec.getLsbD_extractLsb']
  by_cases h : i < 24
  · simp [h]
  · simp only [h, if_false, show i - 24 < 8 by omega, show 24 + (i - 24) = i by omega]
    simp

/-- Each field of a word is a slice of its `CMD[23:0]` (30_encoding R83). -/
theorem fields_of_operandField (cmd : Word) :
    symField cmd = (operandField cmd).extractLsb' 0 8 ∧ kField cmd = (operandField cmd).extractLsb' 8 3 ∧
      idxField cmd = (operandField cmd).extractLsb' 0 9 ∧ selField cmd = (operandField cmd).extractLsb' 0 4 ∧
      bitField cmd = (operandField cmd).extractLsb' 0 1 := by
  refine ⟨?_, ?_, ?_, ?_, ?_⟩ <;>
    (refine BitVec.eq_of_getLsbD_eq fun i hi => ?_
     simp [symField, kField, idxField, selField, bitField, operandField, BitVec.getLsbD_extractLsb'])

/-- Decoding a word whose opcode is a mnemonic's: its fields where the reserved bits are 0, and an error otherwise
(30_encoding R88). -/
theorem decode_opcode_append (m : Mnemonic) (f : BitVec 24) (arg : Word) :
    decode (m.opcode ++ f) arg =
      if f &&& reservedMask m.format = 0 then .ok (withFields m (m.opcode ++ f) arg) else .error (.reservedBits m) := by
  unfold decode
  rw [opcodeField_append, operandField_append, mnemonicOf_opcode]

/-- What the decoder answers: the fields of the mnemonic the opcode stands for, where the reserved bits are 0
(30_encoding R88). -/
theorem decode_ok {cmd arg : Word} {i : Instr} (h : decode cmd arg = .ok i) :
    ∃ m, m.opcode = opcodeField cmd ∧ operandField cmd &&& reservedMask m.format = 0 ∧ i = withFields m cmd arg := by
  unfold decode at h
  split at h
  · cases h
  · next m hm =>
    split at h
    · next hr => exact ⟨m, opcode_of_mnemonicOf hm, hr, by simpa using h.symm⟩
    · cases h

/-- The mnemonic of the command a mnemonic's fields give. -/
@[simp] theorem mnemonic_withFields (m : Mnemonic) (cmd arg : Word) : (withFields m cmd arg).mnemonic = m := by
  cases m <;> rfl

/-- The bytes of a word, least significant first, give the word back (20_memory R62). -/
theorem wordOfBytes_bytesOfWord (w : Word) :
    wordOfBytes (w.extractLsb' 0 8) (w.extractLsb' 8 8) (w.extractLsb' 16 8) (w.extractLsb' 24 8) = w := by
  show (w.extractLsb' 24 8 ++ w.extractLsb' 16 8 ++ w.extractLsb' 8 8 ++ w.extractLsb' 0 8 :
    BitVec (8 + 8 + 8 + 8)) = w
  refine BitVec.eq_of_getLsbD_eq fun i hi => ?_
  simp only [BitVec.getLsbD_append, BitVec.getLsbD_extractLsb']
  by_cases h0 : i < 8
  · simp [h0]
  by_cases h1 : i < 16
  · simp [h0, show i - 8 < 8 by omega, show 8 + (i - 8) = i by omega]
  by_cases h2 : i < 24
  · simp [h0, show ¬ (i - 8 < 8) by omega, show i - 8 - 8 < 8 by omega, show 16 + (i - 8 - 8) = i by omega]
  · simp [h0, show ¬ (i - 8 < 8) by omega, show ¬ (i - 8 - 8 < 8) by omega, show i - 8 - 8 - 8 < 8 by omega,
      show 24 + (i - 8 - 8 - 8) = i by omega]

end Sys2Proof
end

