-- ==== Sys2Proof/Laws/State.lean ====
section
/-!
SUPPORT. What each update of the state leaves in each field, one lemma per field, so that no later proof unfolds
a record update.
-/

namespace Sys2Proof.Machine

/-! reply: only the channel changes (30_encoding R81, R85) -/

@[simp] theorem State.reply_phase (s : State) (opc : BitVec 8) (e : ErrorCode) (d : Word) : (s.reply opc e d).phase = s.phase := rfl
@[simp] theorem State.reply_nleaf (s : State) (opc : BitVec 8) (e : ErrorCode) (d : Word) : (s.reply opc e d).nleaf = s.nleaf := rfl
@[simp] theorem State.reply_nnode (s : State) (opc : BitVec 8) (e : ErrorCode) (d : Word) : (s.reply opc e d).nnode = s.nnode := rfl
@[simp] theorem State.reply_total (s : State) (opc : BitVec 8) (e : ErrorCode) (d : Word) : (s.reply opc e d).total = s.total := rfl
@[simp] theorem State.reply_root (s : State) (opc : BitVec 8) (e : ErrorCode) (d : Word) : (s.reply opc e d).root = s.root := rfl
@[simp] theorem State.reply_seen (s : State) (opc : BitVec 8) (e : ErrorCode) (d : Word) : (s.reply opc e d).seen = s.seen := rfl
@[simp] theorem State.reply_node (s : State) (opc : BitVec 8) (e : ErrorCode) (d : Word) : (s.reply opc e d).node = s.node := rfl
@[simp] theorem State.reply_tv (s : State) (opc : BitVec 8) (e : ErrorCode) (d : Word) : (s.reply opc e d).tv = s.tv := rfl
@[simp] theorem State.reply_table (s : State) (opc : BitVec 8) (e : ErrorCode) (d : Word) : (s.reply opc e d).table = s.table := rfl
@[simp] theorem State.reply_dstate (s : State) (opc : BitVec 8) (e : ErrorCode) (d : Word) : (s.reply opc e d).dstate = s.dstate := rfl
@[simp] theorem State.reply_cursor (s : State) (opc : BitVec 8) (e : ErrorCode) (d : Word) : (s.reply opc e d).cursor = s.cursor := rfl
@[simp] theorem State.reply_queue (s : State) (opc : BitVec 8) (e : ErrorCode) (d : Word) : (s.reply opc e d).queue = s.queue := rfl
@[simp] theorem State.reply_walk (s : State) (opc : BitVec 8) (e : ErrorCode) (d : Word) : (s.reply opc e d).walk = s.walk := rfl
@[simp] theorem State.reply_chan_busy (s : State) (opc : BitVec 8) (e : ErrorCode) (d : Word) : (s.reply opc e d).chan.busy = false := rfl
@[simp] theorem State.reply_chan_rspv (s : State) (opc : BitVec 8) (e : ErrorCode) (d : Word) : (s.reply opc e d).chan.rspv = true := rfl
@[simp] theorem State.reply_chan_rsp (s : State) (opc : BitVec 8) (e : ErrorCode) (d : Word) : (s.reply opc e d).chan.rsp = responseWord opc e := rfl
@[simp] theorem State.reply_chan_data (s : State) (opc : BitVec 8) (e : ErrorCode) (d : Word) : (s.reply opc e d).chan.data = d := rfl
@[simp] theorem State.reply_chan_cmd (s : State) (opc : BitVec 8) (e : ErrorCode) (d : Word) : (s.reply opc e d).chan.cmd = s.chan.cmd := rfl
@[simp] theorem State.reply_chan_arg (s : State) (opc : BitVec 8) (e : ErrorCode) (d : Word) : (s.reply opc e d).chan.arg = s.chan.arg := rfl
@[simp] theorem State.reply_chan_wait (s : State) (opc : BitVec 8) (e : ErrorCode) (d : Word) : (s.reply opc e d).chan.wait = s.chan.wait := rfl
@[simp] theorem State.reply_chan_accepted (s : State) (opc : BitVec 8) (e : ErrorCode) (d : Word) : (s.reply opc e d).chan.accepted = s.chan.accepted := rfl
@[simp] theorem State.reply_chan_host (s : State) (opc : BitVec 8) (e : ErrorCode) (d : Word) : (s.reply opc e d).chan.host = s.chan.host := rfl

/-! answered: only the channel changes -/

@[simp] theorem State.answered_phase (s : State) (r d : Word) : (s.answered r d).phase = s.phase := rfl
@[simp] theorem State.answered_nleaf (s : State) (r d : Word) : (s.answered r d).nleaf = s.nleaf := rfl
@[simp] theorem State.answered_nnode (s : State) (r d : Word) : (s.answered r d).nnode = s.nnode := rfl
@[simp] theorem State.answered_total (s : State) (r d : Word) : (s.answered r d).total = s.total := rfl
@[simp] theorem State.answered_root (s : State) (r d : Word) : (s.answered r d).root = s.root := rfl
@[simp] theorem State.answered_seen (s : State) (r d : Word) : (s.answered r d).seen = s.seen := rfl
@[simp] theorem State.answered_node (s : State) (r d : Word) : (s.answered r d).node = s.node := rfl
@[simp] theorem State.answered_tv (s : State) (r d : Word) : (s.answered r d).tv = s.tv := rfl
@[simp] theorem State.answered_table (s : State) (r d : Word) : (s.answered r d).table = s.table := rfl
@[simp] theorem State.answered_dstate (s : State) (r d : Word) : (s.answered r d).dstate = s.dstate := rfl
@[simp] theorem State.answered_cursor (s : State) (r d : Word) : (s.answered r d).cursor = s.cursor := rfl
@[simp] theorem State.answered_queue (s : State) (r d : Word) : (s.answered r d).queue = s.queue := rfl
@[simp] theorem State.answered_walk (s : State) (r d : Word) : (s.answered r d).walk = s.walk := rfl
@[simp] theorem State.answered_chan_busy (s : State) (r d : Word) : (s.answered r d).chan.busy = false := rfl
@[simp] theorem State.answered_chan_rspv (s : State) (r d : Word) : (s.answered r d).chan.rspv = true := rfl
@[simp] theorem State.answered_chan_rsp (s : State) (r d : Word) : (s.answered r d).chan.rsp = r := rfl
@[simp] theorem State.answered_chan_data (s : State) (r d : Word) : (s.answered r d).chan.data = d := rfl
@[simp] theorem State.answered_chan_cmd (s : State) (r d : Word) : (s.answered r d).chan.cmd = s.chan.cmd := rfl
@[simp] theorem State.answered_chan_arg (s : State) (r d : Word) : (s.answered r d).chan.arg = s.chan.arg := rfl
@[simp] theorem State.answered_chan_wait (s : State) (r d : Word) : (s.answered r d).chan.wait = s.chan.wait := rfl
@[simp] theorem State.answered_chan_accepted (s : State) (r d : Word) : (s.answered r d).chan.accepted = s.chan.accepted := rfl
@[simp] theorem State.answered_chan_host (s : State) (r d : Word) : (s.answered r d).chan.host = s.chan.host := rfl

/-! popPins: only the host's list changes -/

@[simp] theorem State.popPins_phase (s : State) : (s.popPins).phase = s.phase := rfl
@[simp] theorem State.popPins_nleaf (s : State) : (s.popPins).nleaf = s.nleaf := rfl
@[simp] theorem State.popPins_nnode (s : State) : (s.popPins).nnode = s.nnode := rfl
@[simp] theorem State.popPins_total (s : State) : (s.popPins).total = s.total := rfl
@[simp] theorem State.popPins_root (s : State) : (s.popPins).root = s.root := rfl
@[simp] theorem State.popPins_seen (s : State) : (s.popPins).seen = s.seen := rfl
@[simp] theorem State.popPins_node (s : State) : (s.popPins).node = s.node := rfl
@[simp] theorem State.popPins_tv (s : State) : (s.popPins).tv = s.tv := rfl
@[simp] theorem State.popPins_table (s : State) : (s.popPins).table = s.table := rfl
@[simp] theorem State.popPins_dstate (s : State) : (s.popPins).dstate = s.dstate := rfl
@[simp] theorem State.popPins_cursor (s : State) : (s.popPins).cursor = s.cursor := rfl
@[simp] theorem State.popPins_queue (s : State) : (s.popPins).queue = s.queue := rfl
@[simp] theorem State.popPins_walk (s : State) : (s.popPins).walk = s.walk := rfl
@[simp] theorem State.popPins_chan_busy (s : State) : (s.popPins).chan.busy = s.chan.busy := rfl
@[simp] theorem State.popPins_chan_rspv (s : State) : (s.popPins).chan.rspv = s.chan.rspv := rfl
@[simp] theorem State.popPins_chan_rsp (s : State) : (s.popPins).chan.rsp = s.chan.rsp := rfl
@[simp] theorem State.popPins_chan_data (s : State) : (s.popPins).chan.data = s.chan.data := rfl
@[simp] theorem State.popPins_chan_cmd (s : State) : (s.popPins).chan.cmd = s.chan.cmd := rfl
@[simp] theorem State.popPins_chan_arg (s : State) : (s.popPins).chan.arg = s.chan.arg := rfl
@[simp] theorem State.popPins_chan_wait (s : State) : (s.popPins).chan.wait = s.chan.wait := rfl
@[simp] theorem State.popPins_chan_accepted (s : State) : (s.popPins).chan.accepted = s.chan.accepted := rfl
@[simp] theorem State.popPins_chan_host (s : State) : (s.popPins).chan.host = s.chan.host.tail := rfl

/-! takeResponse: only `RSPV` changes (30_encoding R81) -/

@[simp] theorem State.takeResponse_phase (s : State) : (s.takeResponse).phase = s.phase := rfl
@[simp] theorem State.takeResponse_nleaf (s : State) : (s.takeResponse).nleaf = s.nleaf := rfl
@[simp] theorem State.takeResponse_nnode (s : State) : (s.takeResponse).nnode = s.nnode := rfl
@[simp] theorem State.takeResponse_total (s : State) : (s.takeResponse).total = s.total := rfl
@[simp] theorem State.takeResponse_root (s : State) : (s.takeResponse).root = s.root := rfl
@[simp] theorem State.takeResponse_seen (s : State) : (s.takeResponse).seen = s.seen := rfl
@[simp] theorem State.takeResponse_node (s : State) : (s.takeResponse).node = s.node := rfl
@[simp] theorem State.takeResponse_tv (s : State) : (s.takeResponse).tv = s.tv := rfl
@[simp] theorem State.takeResponse_table (s : State) : (s.takeResponse).table = s.table := rfl
@[simp] theorem State.takeResponse_dstate (s : State) : (s.takeResponse).dstate = s.dstate := rfl
@[simp] theorem State.takeResponse_cursor (s : State) : (s.takeResponse).cursor = s.cursor := rfl
@[simp] theorem State.takeResponse_queue (s : State) : (s.takeResponse).queue = s.queue := rfl
@[simp] theorem State.takeResponse_walk (s : State) : (s.takeResponse).walk = s.walk := rfl
@[simp] theorem State.takeResponse_chan_busy (s : State) : (s.takeResponse).chan.busy = s.chan.busy := rfl
@[simp] theorem State.takeResponse_chan_rspv (s : State) : (s.takeResponse).chan.rspv = false := rfl
@[simp] theorem State.takeResponse_chan_rsp (s : State) : (s.takeResponse).chan.rsp = s.chan.rsp := rfl
@[simp] theorem State.takeResponse_chan_data (s : State) : (s.takeResponse).chan.data = s.chan.data := rfl
@[simp] theorem State.takeResponse_chan_cmd (s : State) : (s.takeResponse).chan.cmd = s.chan.cmd := rfl
@[simp] theorem State.takeResponse_chan_arg (s : State) : (s.takeResponse).chan.arg = s.chan.arg := rfl
@[simp] theorem State.takeResponse_chan_wait (s : State) : (s.takeResponse).chan.wait = s.chan.wait := rfl
@[simp] theorem State.takeResponse_chan_accepted (s : State) : (s.takeResponse).chan.accepted = s.chan.accepted := rfl
@[simp] theorem State.takeResponse_chan_host (s : State) : (s.takeResponse).chan.host = s.chan.host := rfl

/-! countDown: only the cycles left change -/

@[simp] theorem State.countDown_phase (s : State) : (s.countDown).phase = s.phase := rfl
@[simp] theorem State.countDown_nleaf (s : State) : (s.countDown).nleaf = s.nleaf := rfl
@[simp] theorem State.countDown_nnode (s : State) : (s.countDown).nnode = s.nnode := rfl
@[simp] theorem State.countDown_total (s : State) : (s.countDown).total = s.total := rfl
@[simp] theorem State.countDown_root (s : State) : (s.countDown).root = s.root := rfl
@[simp] theorem State.countDown_seen (s : State) : (s.countDown).seen = s.seen := rfl
@[simp] theorem State.countDown_node (s : State) : (s.countDown).node = s.node := rfl
@[simp] theorem State.countDown_tv (s : State) : (s.countDown).tv = s.tv := rfl
@[simp] theorem State.countDown_table (s : State) : (s.countDown).table = s.table := rfl
@[simp] theorem State.countDown_dstate (s : State) : (s.countDown).dstate = s.dstate := rfl
@[simp] theorem State.countDown_cursor (s : State) : (s.countDown).cursor = s.cursor := rfl
@[simp] theorem State.countDown_queue (s : State) : (s.countDown).queue = s.queue := rfl
@[simp] theorem State.countDown_walk (s : State) : (s.countDown).walk = s.walk := rfl
@[simp] theorem State.countDown_chan_busy (s : State) : (s.countDown).chan.busy = s.chan.busy := rfl
@[simp] theorem State.countDown_chan_rspv (s : State) : (s.countDown).chan.rspv = s.chan.rspv := rfl
@[simp] theorem State.countDown_chan_rsp (s : State) : (s.countDown).chan.rsp = s.chan.rsp := rfl
@[simp] theorem State.countDown_chan_data (s : State) : (s.countDown).chan.data = s.chan.data := rfl
@[simp] theorem State.countDown_chan_cmd (s : State) : (s.countDown).chan.cmd = s.chan.cmd := rfl
@[simp] theorem State.countDown_chan_arg (s : State) : (s.countDown).chan.arg = s.chan.arg := rfl
@[simp] theorem State.countDown_chan_wait (s : State) : (s.countDown).chan.wait = s.chan.wait - 1 := rfl
@[simp] theorem State.countDown_chan_accepted (s : State) : (s.countDown).chan.accepted = s.chan.accepted := rfl
@[simp] theorem State.countDown_chan_host (s : State) : (s.countDown).chan.host = s.chan.host := rfl

/-! accept: only the channel changes (30_encoding R81) -/

@[simp] theorem State.accept_phase (s : State) (cmd arg : Word) : (s.accept cmd arg).phase = s.phase := rfl
@[simp] theorem State.accept_nleaf (s : State) (cmd arg : Word) : (s.accept cmd arg).nleaf = s.nleaf := rfl
@[simp] theorem State.accept_nnode (s : State) (cmd arg : Word) : (s.accept cmd arg).nnode = s.nnode := rfl
@[simp] theorem State.accept_total (s : State) (cmd arg : Word) : (s.accept cmd arg).total = s.total := rfl
@[simp] theorem State.accept_root (s : State) (cmd arg : Word) : (s.accept cmd arg).root = s.root := rfl
@[simp] theorem State.accept_seen (s : State) (cmd arg : Word) : (s.accept cmd arg).seen = s.seen := rfl
@[simp] theorem State.accept_node (s : State) (cmd arg : Word) : (s.accept cmd arg).node = s.node := rfl
@[simp] theorem State.accept_tv (s : State) (cmd arg : Word) : (s.accept cmd arg).tv = s.tv := rfl
@[simp] theorem State.accept_table (s : State) (cmd arg : Word) : (s.accept cmd arg).table = s.table := rfl
@[simp] theorem State.accept_dstate (s : State) (cmd arg : Word) : (s.accept cmd arg).dstate = s.dstate := rfl
@[simp] theorem State.accept_cursor (s : State) (cmd arg : Word) : (s.accept cmd arg).cursor = s.cursor := rfl
@[simp] theorem State.accept_queue (s : State) (cmd arg : Word) : (s.accept cmd arg).queue = s.queue := rfl
@[simp] theorem State.accept_walk (s : State) (cmd arg : Word) : (s.accept cmd arg).walk = s.walk := rfl
@[simp] theorem State.accept_chan_busy (s : State) (cmd arg : Word) : (s.accept cmd arg).chan.busy = true := rfl
@[simp] theorem State.accept_chan_rspv (s : State) (cmd arg : Word) : (s.accept cmd arg).chan.rspv = s.chan.rspv := rfl
@[simp] theorem State.accept_chan_rsp (s : State) (cmd arg : Word) : (s.accept cmd arg).chan.rsp = s.chan.rsp := rfl
@[simp] theorem State.accept_chan_data (s : State) (cmd arg : Word) : (s.accept cmd arg).chan.data = s.chan.data := rfl
@[simp] theorem State.accept_chan_cmd (s : State) (cmd arg : Word) : (s.accept cmd arg).chan.cmd = cmd := rfl
@[simp] theorem State.accept_chan_arg (s : State) (cmd arg : Word) : (s.accept cmd arg).chan.arg = arg := rfl
@[simp] theorem State.accept_chan_wait (s : State) (cmd arg : Word) : (s.accept cmd arg).chan.wait = Config.latency s.chan.accepted - 1 := rfl
@[simp] theorem State.accept_chan_accepted (s : State) (cmd arg : Word) : (s.accept cmd arg).chan.accepted = s.chan.accepted + 1 := rfl
@[simp] theorem State.accept_chan_host (s : State) (cmd arg : Word) : (s.accept cmd arg).chan.host = s.chan.host := rfl

/-! loadWord: only the channel changes (log entry 14) -/

@[simp] theorem State.loadWord_phase (s : State) (nbits w : Nat) : (s.loadWord nbits w).phase = s.phase := rfl
@[simp] theorem State.loadWord_nleaf (s : State) (nbits w : Nat) : (s.loadWord nbits w).nleaf = s.nleaf := rfl
@[simp] theorem State.loadWord_nnode (s : State) (nbits w : Nat) : (s.loadWord nbits w).nnode = s.nnode := rfl
@[simp] theorem State.loadWord_total (s : State) (nbits w : Nat) : (s.loadWord nbits w).total = s.total := rfl
@[simp] theorem State.loadWord_root (s : State) (nbits w : Nat) : (s.loadWord nbits w).root = s.root := rfl
@[simp] theorem State.loadWord_seen (s : State) (nbits w : Nat) : (s.loadWord nbits w).seen = s.seen := rfl
@[simp] theorem State.loadWord_node (s : State) (nbits w : Nat) : (s.loadWord nbits w).node = s.node := rfl
@[simp] theorem State.loadWord_tv (s : State) (nbits w : Nat) : (s.loadWord nbits w).tv = s.tv := rfl
@[simp] theorem State.loadWord_table (s : State) (nbits w : Nat) : (s.loadWord nbits w).table = s.table := rfl
@[simp] theorem State.loadWord_dstate (s : State) (nbits w : Nat) : (s.loadWord nbits w).dstate = s.dstate := rfl
@[simp] theorem State.loadWord_cursor (s : State) (nbits w : Nat) : (s.loadWord nbits w).cursor = s.cursor := rfl
@[simp] theorem State.loadWord_queue (s : State) (nbits w : Nat) : (s.loadWord nbits w).queue = s.queue := rfl
@[simp] theorem State.loadWord_walk (s : State) (nbits w : Nat) : (s.loadWord nbits w).walk = s.walk := rfl
@[simp] theorem State.loadWord_chan_busy (s : State) (nbits w : Nat) : (s.loadWord nbits w).chan.busy = true := rfl
@[simp] theorem State.loadWord_chan_rspv (s : State) (nbits w : Nat) : (s.loadWord nbits w).chan.rspv = false := rfl
@[simp] theorem State.loadWord_chan_rsp (s : State) (nbits w : Nat) : (s.loadWord nbits w).chan.rsp = s.chan.rsp := rfl
@[simp] theorem State.loadWord_chan_data (s : State) (nbits w : Nat) : (s.loadWord nbits w).chan.data = s.chan.data := rfl
@[simp] theorem State.loadWord_chan_cmd (s : State) (nbits w : Nat) : (s.loadWord nbits w).chan.cmd = tableCmd nbits w := rfl
@[simp] theorem State.loadWord_chan_arg (s : State) (nbits w : Nat) : (s.loadWord nbits w).chan.arg = tableArg nbits w := rfl
@[simp] theorem State.loadWord_chan_wait (s : State) (nbits w : Nat) : (s.loadWord nbits w).chan.wait = 0 := rfl
@[simp] theorem State.loadWord_chan_accepted (s : State) (nbits w : Nat) : (s.loadWord nbits w).chan.accepted = s.chan.accepted := rfl
@[simp] theorem State.loadWord_chan_host (s : State) (nbits w : Nat) : (s.loadWord nbits w).chan.host = releaseReset s.chan.host := rfl

/-! setBuilt: only `PHASE` changes -/

@[simp] theorem State.setBuilt_phase (s : State) : (s.setBuilt).phase = .built := rfl
@[simp] theorem State.setBuilt_nleaf (s : State) : (s.setBuilt).nleaf = s.nleaf := rfl
@[simp] theorem State.setBuilt_nnode (s : State) : (s.setBuilt).nnode = s.nnode := rfl
@[simp] theorem State.setBuilt_total (s : State) : (s.setBuilt).total = s.total := rfl
@[simp] theorem State.setBuilt_root (s : State) : (s.setBuilt).root = s.root := rfl
@[simp] theorem State.setBuilt_seen (s : State) : (s.setBuilt).seen = s.seen := rfl
@[simp] theorem State.setBuilt_node (s : State) : (s.setBuilt).node = s.node := rfl
@[simp] theorem State.setBuilt_tv (s : State) : (s.setBuilt).tv = s.tv := rfl
@[simp] theorem State.setBuilt_table (s : State) : (s.setBuilt).table = s.table := rfl
@[simp] theorem State.setBuilt_dstate (s : State) : (s.setBuilt).dstate = s.dstate := rfl
@[simp] theorem State.setBuilt_cursor (s : State) : (s.setBuilt).cursor = s.cursor := rfl
@[simp] theorem State.setBuilt_queue (s : State) : (s.setBuilt).queue = s.queue := rfl
@[simp] theorem State.setBuilt_walk (s : State) : (s.setBuilt).walk = s.walk := rfl
@[simp] theorem State.setBuilt_chan (s : State) : (s.setBuilt).chan = s.chan := rfl

/-! setDstate: only `DSTATE` changes -/

@[simp] theorem State.setDstate_phase (s : State) (d : DecoderState) : (s.setDstate d).phase = s.phase := rfl
@[simp] theorem State.setDstate_nleaf (s : State) (d : DecoderState) : (s.setDstate d).nleaf = s.nleaf := rfl
@[simp] theorem State.setDstate_nnode (s : State) (d : DecoderState) : (s.setDstate d).nnode = s.nnode := rfl
@[simp] theorem State.setDstate_total (s : State) (d : DecoderState) : (s.setDstate d).total = s.total := rfl
@[simp] theorem State.setDstate_root (s : State) (d : DecoderState) : (s.setDstate d).root = s.root := rfl
@[simp] theorem State.setDstate_seen (s : State) (d : DecoderState) : (s.setDstate d).seen = s.seen := rfl
@[simp] theorem State.setDstate_node (s : State) (d : DecoderState) : (s.setDstate d).node = s.node := rfl
@[simp] theorem State.setDstate_tv (s : State) (d : DecoderState) : (s.setDstate d).tv = s.tv := rfl
@[simp] theorem State.setDstate_table (s : State) (d : DecoderState) : (s.setDstate d).table = s.table := rfl
@[simp] theorem State.setDstate_dstate (s : State) (d : DecoderState) : (s.setDstate d).dstate = d := rfl
@[simp] theorem State.setDstate_cursor (s : State) (d : DecoderState) : (s.setDstate d).cursor = s.cursor := rfl
@[simp] theorem State.setDstate_queue (s : State) (d : DecoderState) : (s.setDstate d).queue = s.queue := rfl
@[simp] theorem State.setDstate_walk (s : State) (d : DecoderState) : (s.setDstate d).walk = s.walk := rfl
@[simp] theorem State.setDstate_chan (s : State) (d : DecoderState) : (s.setDstate d).chan = s.chan := rfl

/-! setCursor: only `CURSOR` changes -/

@[simp] theorem State.setCursor_phase (s : State) (n : NodeIndex) : (s.setCursor n).phase = s.phase := rfl
@[simp] theorem State.setCursor_nleaf (s : State) (n : NodeIndex) : (s.setCursor n).nleaf = s.nleaf := rfl
@[simp] theorem State.setCursor_nnode (s : State) (n : NodeIndex) : (s.setCursor n).nnode = s.nnode := rfl
@[simp] theorem State.setCursor_total (s : State) (n : NodeIndex) : (s.setCursor n).total = s.total := rfl
@[simp] theorem State.setCursor_root (s : State) (n : NodeIndex) : (s.setCursor n).root = s.root := rfl
@[simp] theorem State.setCursor_seen (s : State) (n : NodeIndex) : (s.setCursor n).seen = s.seen := rfl
@[simp] theorem State.setCursor_node (s : State) (n : NodeIndex) : (s.setCursor n).node = s.node := rfl
@[simp] theorem State.setCursor_tv (s : State) (n : NodeIndex) : (s.setCursor n).tv = s.tv := rfl
@[simp] theorem State.setCursor_table (s : State) (n : NodeIndex) : (s.setCursor n).table = s.table := rfl
@[simp] theorem State.setCursor_dstate (s : State) (n : NodeIndex) : (s.setCursor n).dstate = s.dstate := rfl
@[simp] theorem State.setCursor_cursor (s : State) (n : NodeIndex) : (s.setCursor n).cursor = n := rfl
@[simp] theorem State.setCursor_queue (s : State) (n : NodeIndex) : (s.setCursor n).queue = s.queue := rfl
@[simp] theorem State.setCursor_walk (s : State) (n : NodeIndex) : (s.setCursor n).walk = s.walk := rfl
@[simp] theorem State.setCursor_chan (s : State) (n : NodeIndex) : (s.setCursor n).chan = s.chan := rfl

/-! addLeaf: a successful LOAD (40_builder R101) -/

@[simp] theorem State.addLeaf_phase (s : State) (sym : Symbol) (count : Freq) : (s.addLeaf sym count).phase = s.phase := rfl
@[simp] theorem State.addLeaf_nleaf (s : State) (sym : Symbol) (count : Freq) : (s.addLeaf sym count).nleaf = s.nleaf + 1 := rfl
@[simp] theorem State.addLeaf_nnode (s : State) (sym : Symbol) (count : Freq) : (s.addLeaf sym count).nnode = s.nnode + 1 := rfl
@[simp] theorem State.addLeaf_total (s : State) (sym : Symbol) (count : Freq) : (s.addLeaf sym count).total = s.total + count := rfl
@[simp] theorem State.addLeaf_root (s : State) (sym : Symbol) (count : Freq) : (s.addLeaf sym count).root = s.root := rfl
@[simp] theorem State.addLeaf_seen (s : State) (sym : Symbol) (count : Freq) : (s.addLeaf sym count).seen = setFlag s.seen sym := rfl
@[simp] theorem State.addLeaf_node (s : State) (sym : Symbol) (count : Freq) : (s.addLeaf sym count).node = setNode s.node s.nleaf.toNat (leafNode sym count) := rfl
@[simp] theorem State.addLeaf_tv (s : State) (sym : Symbol) (count : Freq) : (s.addLeaf sym count).tv = s.tv := rfl
@[simp] theorem State.addLeaf_table (s : State) (sym : Symbol) (count : Freq) : (s.addLeaf sym count).table = s.table := rfl
@[simp] theorem State.addLeaf_dstate (s : State) (sym : Symbol) (count : Freq) : (s.addLeaf sym count).dstate = s.dstate := rfl
@[simp] theorem State.addLeaf_cursor (s : State) (sym : Symbol) (count : Freq) : (s.addLeaf sym count).cursor = s.cursor := rfl
@[simp] theorem State.addLeaf_queue (s : State) (sym : Symbol) (count : Freq) : (s.addLeaf sym count).queue = s.queue := rfl
@[simp] theorem State.addLeaf_walk (s : State) (sym : Symbol) (count : Freq) : (s.addLeaf sym count).walk = s.walk := rfl
@[simp] theorem State.addLeaf_chan (s : State) (sym : Symbol) (count : Freq) : (s.addLeaf sym count).chan = s.chan := rfl

/-! buildTree: a successful BUILD (40_builder R110) -/

@[simp] theorem State.buildTree_phase (s : State) : (s.buildTree).phase = .built := rfl
@[simp] theorem State.buildTree_nleaf (s : State) : (s.buildTree).nleaf = s.nleaf := rfl
@[simp] theorem State.buildTree_nnode (s : State) : (s.buildTree).nnode = BitVec.ofNat 9 (mergeAll s).next := rfl
@[simp] theorem State.buildTree_total (s : State) : (s.buildTree).total = s.total := rfl
@[simp] theorem State.buildTree_root (s : State) : (s.buildTree).root = (heapExtract (mergeAll s).arena (mergeAll s).queue).1 := rfl
@[simp] theorem State.buildTree_seen (s : State) : (s.buildTree).seen = s.seen := rfl
@[simp] theorem State.buildTree_node (s : State) : (s.buildTree).node = (mergeAll s).arena := rfl
@[simp] theorem State.buildTree_tv (s : State) : (s.buildTree).tv = s.tv := rfl
@[simp] theorem State.buildTree_table (s : State) : (s.buildTree).table = s.table := rfl
@[simp] theorem State.buildTree_dstate (s : State) : (s.buildTree).dstate = s.dstate := rfl
@[simp] theorem State.buildTree_cursor (s : State) : (s.buildTree).cursor = s.cursor := rfl
@[simp] theorem State.buildTree_queue (s : State) : (s.buildTree).queue = (heapExtract (mergeAll s).arena (mergeAll s).queue).2 := rfl
@[simp] theorem State.buildTree_walk (s : State) : (s.buildTree).walk = s.walk := rfl
@[simp] theorem State.buildTree_chan (s : State) : (s.buildTree).chan = s.chan := rfl

/-! withCodes: a successful GENCODES (41_codegen R130) -/

@[simp] theorem State.withCodes_phase (s : State) (r : Walk × CodeTable) : (s.withCodes r).phase = s.phase := rfl
@[simp] theorem State.withCodes_nleaf (s : State) (r : Walk × CodeTable) : (s.withCodes r).nleaf = s.nleaf := rfl
@[simp] theorem State.withCodes_nnode (s : State) (r : Walk × CodeTable) : (s.withCodes r).nnode = s.nnode := rfl
@[simp] theorem State.withCodes_total (s : State) (r : Walk × CodeTable) : (s.withCodes r).total = s.total := rfl
@[simp] theorem State.withCodes_root (s : State) (r : Walk × CodeTable) : (s.withCodes r).root = s.root := rfl
@[simp] theorem State.withCodes_seen (s : State) (r : Walk × CodeTable) : (s.withCodes r).seen = s.seen := rfl
@[simp] theorem State.withCodes_node (s : State) (r : Walk × CodeTable) : (s.withCodes r).node = s.node := rfl
@[simp] theorem State.withCodes_tv (s : State) (r : Walk × CodeTable) : (s.withCodes r).tv = true := rfl
@[simp] theorem State.withCodes_table (s : State) (r : Walk × CodeTable) : (s.withCodes r).table = r.2 := rfl
@[simp] theorem State.withCodes_dstate (s : State) (r : Walk × CodeTable) : (s.withCodes r).dstate = s.dstate := rfl
@[simp] theorem State.withCodes_cursor (s : State) (r : Walk × CodeTable) : (s.withCodes r).cursor = s.cursor := rfl
@[simp] theorem State.withCodes_queue (s : State) (r : Walk × CodeTable) : (s.withCodes r).queue = s.queue := rfl
@[simp] theorem State.withCodes_walk (s : State) (r : Walk × CodeTable) : (s.withCodes r).walk = r.1 := rfl
@[simp] theorem State.withCodes_chan (s : State) (r : Walk × CodeTable) : (s.withCodes r).chan = s.chan := rfl

/-! cleared: CLEAR (43_system R181) -/

@[simp] theorem State.cleared_phase (s : State) : (s.cleared).phase = .loading := rfl
@[simp] theorem State.cleared_nleaf (s : State) : (s.cleared).nleaf = 0 := rfl
@[simp] theorem State.cleared_nnode (s : State) : (s.cleared).nnode = 0 := rfl
@[simp] theorem State.cleared_total (s : State) : (s.cleared).total = 0 := rfl
@[simp] theorem State.cleared_root (s : State) : (s.cleared).root = 0 := rfl
@[simp] theorem State.cleared_seen (s : State) : (s.cleared).seen = Vector.replicate 256 false := rfl
@[simp] theorem State.cleared_node (s : State) : (s.cleared).node = s.node := rfl
@[simp] theorem State.cleared_tv (s : State) : (s.cleared).tv = false := rfl
@[simp] theorem State.cleared_table (s : State) : (s.cleared).table = { s.table with valid := Vector.replicate 256 false } := rfl
@[simp] theorem State.cleared_dstate (s : State) : (s.cleared).dstate = .idle := rfl
@[simp] theorem State.cleared_cursor (s : State) : (s.cleared).cursor = 0 := rfl
@[simp] theorem State.cleared_queue (s : State) : (s.cleared).queue = { s.queue with size := 0 } := rfl
@[simp] theorem State.cleared_walk (s : State) : (s.cleared).walk = { s.walk with sp := 0 } := rfl
@[simp] theorem State.cleared_chan (s : State) : (s.cleared).chan = s.chan := rfl

/-! hardReset: `rst` (70_reset_and_hazards R230) -/

@[simp] theorem State.hardReset_phase (s : State) : (s.hardReset).phase = State.reset.phase := rfl
@[simp] theorem State.hardReset_nleaf (s : State) : (s.hardReset).nleaf = State.reset.nleaf := rfl
@[simp] theorem State.hardReset_nnode (s : State) : (s.hardReset).nnode = State.reset.nnode := rfl
@[simp] theorem State.hardReset_total (s : State) : (s.hardReset).total = State.reset.total := rfl
@[simp] theorem State.hardReset_root (s : State) : (s.hardReset).root = State.reset.root := rfl
@[simp] theorem State.hardReset_seen (s : State) : (s.hardReset).seen = State.reset.seen := rfl
@[simp] theorem State.hardReset_node (s : State) : (s.hardReset).node = State.reset.node := rfl
@[simp] theorem State.hardReset_tv (s : State) : (s.hardReset).tv = State.reset.tv := rfl
@[simp] theorem State.hardReset_table (s : State) : (s.hardReset).table = State.reset.table := rfl
@[simp] theorem State.hardReset_dstate (s : State) : (s.hardReset).dstate = State.reset.dstate := rfl
@[simp] theorem State.hardReset_cursor (s : State) : (s.hardReset).cursor = State.reset.cursor := rfl
@[simp] theorem State.hardReset_queue (s : State) : (s.hardReset).queue = State.reset.queue := rfl
@[simp] theorem State.hardReset_walk (s : State) : (s.hardReset).walk = State.reset.walk := rfl
@[simp] theorem State.hardReset_chan (s : State) : (s.hardReset).chan = { State.reset.chan with accepted := s.chan.accepted, host := s.chan.host } := rfl

end Sys2Proof.Machine
end

