-- ==== Sys2Proof/Laws/Ops.lean ====
section
/-!
SUPPORT. One spec lemma per shared operation: the arrays read back what was written and keep the rest, a response
word shows its opcode and its code, and the two endings of a command answer a next state.
-/

namespace Sys2Proof.Machine

/-! The arena (10_state R28). -/

theorem nodeAt_of_lt (a : Arena) (i : Nat) (h : i < 511) : nodeAt a i = a[i] := by
  simp [nodeAt, h]

@[simp] theorem nodeAt_setNode_self (a : Arena) (i : Nat) (n : Node) (h : i < 511) :
    nodeAt (setNode a i n) i = n := by
  simp [nodeAt, setNode, h]

@[simp] theorem nodeAt_setNode_of_ne (a : Arena) (i j : Nat) (n : Node) (h : i ≠ j) :
    nodeAt (setNode a i n) j = nodeAt a j := by
  simp [nodeAt, setNode, h]

/-! One bit per symbol (10_state R27, R31). -/

@[simp] theorem flagAt_setFlag_self (v : Vector Bool 256) (sym : Symbol) : flagAt (setFlag v sym) sym = true := by
  simp [flagAt, setFlag]

theorem flagAt_setFlag_of_ne (v : Vector Bool 256) (sym other : Symbol) (h : sym ≠ other) :
    flagAt (setFlag v sym) other = flagAt v other := by
  have hne : sym.toNat ≠ other.toNat := fun e => h (BitVec.eq_of_toNat_eq e)
  simp [flagAt, setFlag, hne]

@[simp] theorem flagAt_replicate (b : Bool) (sym : Symbol) : flagAt (Vector.replicate 256 b) sym = b := by
  simp [flagAt]

/-! The code table (10_state R31, 41_codegen R131). -/

@[simp] theorem recordCode_valid (t : CodeTable) (sym : Symbol) (d : Nat) (p : CodeVector) :
    (recordCode t sym d p).valid = setFlag t.valid sym := rfl

@[simp] theorem lenAt_recordCode_self (t : CodeTable) (sym : Symbol) (d : Nat) (p : CodeVector) :
    lenAt (recordCode t sym d p) sym = BitVec.ofNat 8 d := by
  simp [lenAt, recordCode]

@[simp] theorem bitsAt_recordCode_self (t : CodeTable) (sym : Symbol) (d : Nat) (p : CodeVector) :
    bitsAt (recordCode t sym d p) sym = p &&& ((1#256 <<< d) - 1#256) := by
  simp [bitsAt, recordCode]

theorem lenAt_recordCode_of_ne (t : CodeTable) (sym other : Symbol) (d : Nat) (p : CodeVector)
    (h : sym ≠ other) : lenAt (recordCode t sym d p) other = lenAt t other := by
  have hne : sym.toNat ≠ other.toNat := fun e => h (BitVec.eq_of_toNat_eq e)
  simp [lenAt, recordCode, hne]

theorem bitsAt_recordCode_of_ne (t : CodeTable) (sym other : Symbol) (d : Nat) (p : CodeVector)
    (h : sym ≠ other) : bitsAt (recordCode t sym d p) other = bitsAt t other := by
  have hne : sym.toNat ≠ other.toNat := fun e => h (BitVec.eq_of_toNat_eq e)
  simp [bitsAt, recordCode, hne]

/-- The mask of `CBITS[s] <- PATH & ((1 << d) - 1)` keeps exactly the digits below `d` (41_codegen R131). -/
theorem getLsbD_masked (p : CodeVector) (d k : Nat) (hd : d < 256) :
    (p &&& ((1#256 <<< d) - 1#256)).getLsbD k = (p.getLsbD k && decide (k < d)) := by
  have hmask : ((1#256 <<< d) - 1#256 : BitVec 256) = BitVec.ofNat 256 (2 ^ d - 1) := by
    have hpow : (2 : Nat) ^ d < 2 ^ 256 := Nat.pow_lt_pow_right (by omega) hd
    have hpos : 0 < (2 : Nat) ^ d := by positivity
    apply BitVec.eq_of_toNat_eq
    rw [BitVec.toNat_sub, BitVec.toNat_shiftLeft, BitVec.toNat_ofNat, BitVec.toNat_ofNat, Nat.shiftLeft_eq]
    rw [Nat.mod_eq_of_lt (show 1 < 2 ^ 256 by norm_num), Nat.one_mul, Nat.mod_eq_of_lt hpow,
      Nat.mod_eq_of_lt (show 2 ^ d - 1 < 2 ^ 256 by omega)]
    omega
  rw [hmask, BitVec.getLsbD_and, BitVec.getLsbD_ofNat, Nat.testBit_two_pow_sub_one]
  by_cases hk : k < d
  · simp [hk, show k < 256 by omega]
  · simp [hk]

/-- `PATH[k] <- digit` writes digit `k` and keeps the others (41_codegen R131). -/
theorem getLsbD_setDigit (p : CodeVector) (k j : Nat) (b : Bool) (hk : k < 256) :
    (setDigit p k b).getLsbD j = if j = k then b else p.getLsbD j := by
  cases b <;> by_cases hj : j = k
  · subst hj; simp [setDigit, hk]
  · by_cases hlt : j < 256
    · simp [setDigit, hj, hlt]
    · simp [setDigit, hj, BitVec.getLsbD_of_ge _ _ (Nat.le_of_not_lt hlt)]
  · subst hj; simp [setDigit, hk]
  · simp [setDigit, BitVec.getLsbD_twoPow, hj, Ne.symm hj]

/-! Responses (30_encoding R85, R86). -/

theorem responseWord_opcode (opc : BitVec 8) (e : ErrorCode) : (responseWord opc e).extractLsb' 24 8 = opc := by
  show (opc ++ 0#20 ++ errorNumber e : BitVec (8 + 20 + 4)).extractLsb' 24 8 = opc
  ext i hi
  simp only [BitVec.getElem_extractLsb', BitVec.getLsbD_append]
  simp [show ¬ (24 + i < 4) by omega, show ¬ (24 + i - 4 < 20) by omega, show 24 + i - 4 - 20 = i by omega, hi]

theorem responseWord_code (opc : BitVec 8) (e : ErrorCode) :
    (responseWord opc e).extractLsb' 0 4 = errorNumber e := by
  show (opc ++ 0#20 ++ errorNumber e : BitVec (8 + 20 + 4)).extractLsb' 0 4 = errorNumber e
  ext i hi
  simp only [BitVec.getElem_extractLsb', BitVec.getLsbD_append]
  simp [hi]

theorem responseWord_reserved (opc : BitVec 8) (e : ErrorCode) : (responseWord opc e).extractLsb' 4 20 = 0 := by
  show (opc ++ 0#20 ++ errorNumber e : BitVec (8 + 20 + 4)).extractLsb' 4 20 = 0
  ext i hi
  simp only [BitVec.getElem_extractLsb', BitVec.getLsbD_append]
  simp [show ¬ (4 + i < 4) by omega, hi]

/-- An error code is carried as 0 exactly when it is `OK` (60_exceptions R200). -/
theorem errorNumber_eq_zero (e : ErrorCode) : errorNumber e = 0 ↔ e = .ok := by
  cases e <;> decide

theorem reply_eq_answered (s : State) (opc : BitVec 8) (e : ErrorCode) (d : Word) :
    s.reply opc e d = s.answered (responseWord opc e) d := rfl

theorem respond_eq_next (m : Mnemonic) (d : Word) (s : State) :
    respond m d s = .next (s.answered (responseWord m.opcode .ok) d) := rfl

theorem raise_eq_next (m : Mnemonic) (e : ErrorCode) (s : State) :
    raise m e s = .next (s.answered (responseWord m.opcode e) 0) := rfl

/-- `DATA` of an emitting command holds 1 in bit 8 and the symbol below it (42_decoder R156). -/
theorem emitted_symbol (sym : Symbol) :
    (emitted sym).getLsbD 8 = true ∧ (emitted sym).extractLsb' 0 8 = sym := by
  constructor
  · show (0#23 ++ 1#1 ++ sym : BitVec (23 + 1 + 8)).getLsbD 8 = true
    simp only [BitVec.getLsbD_append]
    simp
  · show (0#23 ++ 1#1 ++ sym : BitVec (23 + 1 + 8)).extractLsb' 0 8 = sym
    ext i hi
    simp only [BitVec.getElem_extractLsb', BitVec.getLsbD_append]
    simp [hi]

end Sys2Proof.Machine
end

