-- ==== Sys2Proof/Laws/Step.lean ====
section
/-!
SUPPORT. Says once what one edge can do (30_encoding R81) and how commands can end.
-/

namespace Sys2Proof.Machine

/-- What one edge does, by the inputs and the interface state: the seven cases of 30_encoding R81 and
70_reset_and_hazards R230, each with its guard. -/
theorem step_cases (s : State) :
    (s.pins.rst = true ∧ step s = .next s.popPins.hardReset) ∨
    (s.pins.rst = false ∧ s.chan.busy = true ∧ s.chan.wait = 0 ∧ step s = runCommand s.popPins) ∨
    (s.pins.rst = false ∧ s.chan.busy = true ∧ s.chan.wait ≠ 0 ∧ step s = .next s.popPins.countDown) ∨
    (s.pins.rst = false ∧ s.chan.busy = false ∧ s.chan.rspv = true ∧ s.pins.rspReady = true ∧
      step s = .next s.popPins.takeResponse) ∨
    (s.pins.rst = false ∧ s.chan.busy = false ∧ s.chan.rspv = true ∧ s.pins.rspReady = false ∧
      step s = .next s.popPins) ∨
    (s.pins.rst = false ∧ s.chan.busy = false ∧ s.chan.rspv = false ∧ s.pins.cmdValid = true ∧
      step s = .next (s.popPins.accept s.pins.cmdWord s.pins.cmdArg)) ∨
    (s.pins.rst = false ∧ s.chan.busy = false ∧ s.chan.rspv = false ∧ s.pins.cmdValid = false ∧
      step s = .next s.popPins) := by
  unfold step edgeAction
  cases s.pins.rst <;> cases s.chan.busy <;> cases s.chan.rspv <;> cases s.pins.rspReady <;>
    cases s.pins.cmdValid <;> by_cases hw : s.chan.wait = 0 <;> simp [hw]

/-- The output ports while `rst` is low (30_encoding R80, R81). -/
theorem ports_of_rst_low {p : Pins} (s : State) (h : p.rst = false) :
    ports p s =
      { cmdReady := !s.chan.busy && !s.chan.rspv
        rspValid := s.chan.rspv
        response := if s.chan.rspv then some (s.chan.rsp, s.chan.data) else none } := by
  simp [ports, h]

/-- A command in flight is decoded and performed, or answered with `IllegalCommand` (30_encoding R88). -/
theorem runCommand_cases (s : State) :
    (∃ i, s.fetched = .ok i ∧ runCommand s = exec i s) ∨
    (∃ e, s.fetched = .error e ∧
      runCommand s = .next (s.answered (responseWord (opcodeField s.chan.cmd) .illegalCommand) 0)) := by
  unfold runCommand
  cases h : s.fetched with
  | ok i => exact .inl ⟨i, rfl, rfl⟩
  | error e => exact .inr ⟨e, rfl, rfl⟩

/-- `WalkStep` answers a next state: the cursor back at the root with the leaf's symbol, or at the child
(42_decoder R152). -/
theorem walkStep_cases (m : Mnemonic) (dir : Bool) (s : State) :
    ((nodeAt s.node (nextIndex s dir).toNat).leaf = true ∧
      walkStep m dir s = .next ((s.setCursor s.root).answered (responseWord m.opcode .ok)
        (emitted (nodeAt s.node (nextIndex s dir).toNat).sym))) ∨
    ((nodeAt s.node (nextIndex s dir).toNat).leaf = false ∧
      walkStep m dir s = .next ((s.setCursor (nextIndex s dir)).answered (responseWord m.opcode .ok) 0)) := by
  unfold walkStep
  cases h : (nodeAt s.node (nextIndex s dir).toNat).leaf
  · exact .inr ⟨rfl, by simp [respond_eq_next]⟩
  · exact .inl ⟨rfl, by simp [respond_eq_next]⟩

/-- LOAD answers an error with nothing changed, or adds its leaf (40_builder R101). -/
theorem execLoad_cases (sym : Symbol) (count : Freq) (s : State) :
    (∃ e, e ≠ .ok ∧ execLoad sym count s = .next (s.answered (responseWord 0x02 e) 0)) ∨
    (s.phase = .loading ∧ count ≠ 0 ∧ flagAt s.seen sym = false ∧ s.total.toNat + count.toNat ≤ 0xFFFFFFFF ∧
      execLoad sym count s =
        .next ((s.addLeaf sym count).answered (responseWord 0x02 .ok) (s.nleaf.setWidth 32))) := by
  unfold execLoad
  split_ifs with h1 h2 h3 h4
  · exact .inl ⟨.sequence, by decide, rfl⟩
  · exact .inl ⟨.zeroCount, by decide, rfl⟩
  · exact .inl ⟨.duplicateSymbol, by decide, rfl⟩
  · exact .inl ⟨.freqOverflow, by decide, rfl⟩
  · exact .inr ⟨not_not.1 h1, h2, by simpa using h3, by omega, rfl⟩

/-- BUILD answers an error with nothing changed, or builds the tree (40_builder R110). -/
theorem execBuild_cases (s : State) :
    (∃ e, e ≠ .ok ∧ execBuild s = .next (s.answered (responseWord 0x03 e) 0)) ∨
    (s.phase = .loading ∧ s.nleaf ≠ 0 ∧
      execBuild s = .next (s.buildTree.answered (responseWord 0x03 .ok) (s.buildTree.root.setWidth 32))) := by
  unfold execBuild
  split_ifs with h1 h2
  · exact .inl ⟨.sequence, by decide, rfl⟩
  · exact .inl ⟨.emptyInput, by decide, rfl⟩
  · exact .inr ⟨not_not.1 h1, h2, rfl⟩

/-- GENCODES answers `NullTree` with nothing changed, writes the table of its walk, or stops where the walk has
no end (41_codegen R130). -/
theorem execGencodes_cases (s : State) :
    (s.phase ≠ .built ∧ execGencodes s = .next (s.answered (responseWord 0x04 .nullTree) 0)) ∨
    (s.phase = .built ∧ ∃ r, traverse s = some r ∧
      execGencodes s = .next ((s.withCodes r).answered (responseWord 0x04 .ok) (s.nleaf.setWidth 32))) ∨
    (s.phase = .built ∧ traverse s = none ∧ execGencodes s = .fault .brokenTree) := by
  unfold execGencodes
  by_cases h : s.phase = .built
  · cases hr : traverse s with
    | none => exact .inr (.inr ⟨h, rfl, by simp [h]⟩)
    | some r => exact .inr (.inl ⟨h, r, rfl, by simp [h, respond_eq_next]; rfl⟩)
  · exact .inl ⟨h, by simp [h, raise_eq_next]; rfl⟩

/-- The invariants speak of the channel only to say that `BUSY` and `RSPV` are not both 1 (10_state R38). -/
theorem inv_withChan {s : State} (h : s.Inv) (c : Channel) (hc : ¬ (c.busy = true ∧ c.rspv = true)) :
    ({ s with chan := c } : State).Inv where
  counts := ⟨h.counts.leaves_le, h.counts.loading, h.counts.built⟩
  leaves := ⟨h.leaves.shape, h.leaves.distinct, h.leaves.seen, h.leaves.total⟩
  tree hb := ⟨(h.tree hb).internal, (h.tree hb).owned, (h.tree hb).rootFree, (h.tree hb).rootTotal⟩
  table := ⟨h.table.empty, h.table.built, h.table.valid, h.table.codes⟩
  decoder := ⟨h.decoder.loading, h.decoder.active⟩
  rest := ⟨h.rest.queue, h.rest.stack, hc⟩

/-- A run of `n + m` edges is a run of `n` edges and then one of `m`. -/
theorem runEdges_add (n m : Nat) {s t : State} (h : runEdges n s = .next t) :
    runEdges (n + m) s = runEdges m t := by
  induction n generalizing s with
  | zero => cases h; simp
  | succ n ih =>
    rw [Nat.succ_add]
    rw [runEdges] at h ⊢
    cases hh : step s <;> simp only [hh] at h ⊢
    · exact ih h
    · cases h
    · cases h

end Sys2Proof.Machine
end

