-- ==== Sys2Proof/Laws/Exec.lean ====
section
/-!
SUPPORT. Says once what a command that answers a next state can have done: an error that changes nothing, one of
the two errors that enter `FAILED`, or the command's own effect.
-/

namespace Sys2Proof.Machine

/-- The effect of a command that answers `OK`: the state `u` before the response is attached, and `DATA`. -/
inductive Success (s : State) : Instr → State → Word → Prop
  | nop : Success s .nop s 0
  | clear : Success s .clear s.cleared 0
  | load (sym : Symbol) (count : Freq) : s.phase = .loading → count ≠ 0 → flagAt s.seen sym = false →
      s.total.toNat + count.toNat ≤ 0xFFFFFFFF →
      Success s (.load sym count) (s.addLeaf sym count) (s.nleaf.setWidth 32)
  | build : s.phase = .loading → s.nleaf ≠ 0 → Success s .build s.buildTree (s.buildTree.root.setWidth 32)
  | gencodes (r : Walk × CodeTable) : s.phase = .built → traverse s = some r →
      Success s .gencodes (s.withCodes r) (s.nleaf.setWidth 32)
  | lookup (sym : Symbol) (len : BitVec 8) (bits : CodeVector) : codeEntry sym s = some (len, bits) →
      Success s (.lookup sym) s (len.setWidth 32)
  | readcode (sym : Symbol) (k : BitVec 3) (len : BitVec 8) (bits : CodeVector) :
      codeEntry sym s = some (len, bits) → Success s (.readcode sym k) s (codeWord bits k)
  | nodefreq (idx : NodeIndex) (n : Node) : validNode idx s = some n → Success s (.nodefreq idx) s n.freq
  | nodelink (idx : NodeIndex) (n : Node) : validNode idx s = some n → Success s (.nodelink idx) s (linkWord n)
  | info (sel : BitVec 4) (v : Word) : infoRegister sel s = some v → Success s (.info sel) s v
  | decstart : s.phase = .built →
      Success s .decstart ((s.setCursor s.root).setDstate .active) (s.root.setWidth 32)
  | digitLeaf (i : Instr) (dir : Bool) : s.phase = .built → s.dstate = .active → (rootNode s).leaf = false →
      ((∃ ch, i = .decbit ch ∧ digitOfChar ch = some dir) ∨ ∃ bit, i = .decraw bit ∧ digitOfBit bit = dir) →
      (nodeAt s.node (nextIndex s dir).toNat).leaf = true →
      Success s i (s.setCursor s.root) (emitted (nodeAt s.node (nextIndex s dir).toNat).sym)
  | digitInternal (i : Instr) (dir : Bool) : s.phase = .built → s.dstate = .active → (rootNode s).leaf = false →
      ((∃ ch, i = .decbit ch ∧ digitOfChar ch = some dir) ∨ ∃ bit, i = .decraw bit ∧ digitOfBit bit = dir) →
      (nodeAt s.node (nextIndex s dir).toNat).leaf = false →
      Success s i (s.setCursor (nextIndex s dir)) 0
  | decroot : s.phase = .built → s.dstate = .active → (rootNode s).leaf = true →
      Success s .decroot s (emitted (rootNode s).sym)
  | decend : s.phase = .built → s.dstate = .active → s.cursor = s.root →
      Success s .decend (s.setDstate .idle) 0

/-- An error of a command that changes nothing but the channel (60_exceptions R203). -/
abbrev Quiet (m : Mnemonic) (e : ErrorCode) : Prop :=
  e ≠ .ok ∧ e ≠ .invalidBit ∧ e ≠ .truncatedStream ∧ errorNumber e ∈ allowedErrors m

/-- What a command that answers the next state `t` has done. -/
inductive Ended (s : State) (i : Instr) : State → Prop
  | quiet (e : ErrorCode) : Quiet i.mnemonic e → Ended s i (s.reply i.mnemonic.opcode e 0)
  | invalidBit (ch : BitVec 8) : i = .decbit ch → s.phase = .built → s.dstate = .active →
      (rootNode s).leaf = false → digitOfChar ch = none →
      Ended s i ((s.setDstate .failed).reply i.mnemonic.opcode .invalidBit 0)
  | truncated : i = .decend → s.phase = .built → s.dstate = .active → s.cursor ≠ s.root →
      Ended s i ((s.setDstate .failed).reply i.mnemonic.opcode .truncatedStream 0)
  | success (u : State) (d : Word) : Success s i u d → Ended s i (u.reply i.mnemonic.opcode .ok d)

theorem exec_cases {i : Instr} {s t : State} (h : exec i s = .next t) : Ended s i t := by
  cases i with
  | nop => cases h; exact .success _ _ .nop
  | clear => cases h; exact .success _ _ .clear
  | load sym count =>
    simp only [exec, execLoad] at h
    split_ifs at h with h1 h2 h3 h4 <;> cases h
    · exact .quiet .sequence (show Quiet .load .sequence by decide)
    · exact .quiet .zeroCount (show Quiet .load .zeroCount by decide)
    · exact .quiet .duplicateSymbol (show Quiet .load .duplicateSymbol by decide)
    · exact .quiet .freqOverflow (show Quiet .load .freqOverflow by decide)
    · exact .success _ _ (.load sym count (not_not.1 h1) h2 (by simpa using h3) (by omega))
  | build =>
    simp only [exec, execBuild] at h
    split_ifs at h with h1 h2 <;> cases h
    · exact .quiet .sequence (show Quiet .build .sequence by decide)
    · exact .quiet .emptyInput (show Quiet .build .emptyInput by decide)
    · exact .success _ _ (.build (not_not.1 h1) h2)
  | gencodes =>
    rcases execGencodes_cases s with ⟨_, h'⟩ | ⟨h1, r, hr, h'⟩ | ⟨_, _, h'⟩
    · rw [exec, h'] at h; cases h; exact .quiet .nullTree (show Quiet .gencodes .nullTree by decide)
    · rw [exec, h'] at h; cases h; exact .success _ _ (.gencodes r h1 hr)
    · rw [exec, h'] at h; cases h
  | lookup sym =>
    simp only [exec, execLookup] at h
    split at h <;> cases h
    · exact .quiet .unknownSymbol (show Quiet .lookup .unknownSymbol by decide)
    · next hc => exact .success _ _ (.lookup sym _ _ hc)
  | readcode sym k =>
    simp only [exec, execReadcode] at h
    split at h <;> cases h
    · exact .quiet .unknownSymbol (show Quiet .readcode .unknownSymbol by decide)
    · next hc => exact .success _ _ (.readcode sym k _ _ hc)
  | nodefreq idx =>
    simp only [exec, execNodefreq] at h
    split at h <;> cases h
    · next hc => exact .success _ _ (.nodefreq idx _ hc)
    · exact .quiet .range (show Quiet .nodefreq .range by decide)
  | nodelink idx =>
    simp only [exec, execNodelink] at h
    split at h <;> cases h
    · next hc => exact .success _ _ (.nodelink idx _ hc)
    · exact .quiet .range (show Quiet .nodelink .range by decide)
  | info sel =>
    simp only [exec, execInfo] at h
    split at h <;> cases h
    · next hc => exact .success _ _ (.info sel _ hc)
    · exact .quiet .range (show Quiet .info .range by decide)
  | decstart =>
    simp only [exec, execDecstart] at h
    split_ifs at h with h1 <;> cases h
    · exact .quiet .nullTree (show Quiet .decstart .nullTree by decide)
    · exact .success _ _ (.decstart (not_not.1 h1))
  | decbit ch =>
    simp only [exec, execDecbit] at h
    split_ifs at h with h1 h2 h3
    · cases h; exact .quiet .nullTree (show Quiet .decbit .nullTree by decide)
    · cases h; exact .quiet .sequence (show Quiet .decbit .sequence by decide)
    · cases h; exact .quiet .rootKind (show Quiet .decbit .rootKind by decide)
    · have h3' : (rootNode s).leaf = false := by simpa using h3
      split at h
      · next dir hd =>
        rcases walkStep_cases .decbit dir s with ⟨hl, h'⟩ | ⟨hl, h'⟩ <;> rw [h'] at h <;> cases h
        · exact .success _ _ (.digitLeaf _ dir (not_not.1 h1) (not_not.1 h2) h3' (.inl ⟨ch, rfl, hd⟩) hl)
        · exact .success _ _ (.digitInternal _ dir (not_not.1 h1) (not_not.1 h2) h3' (.inl ⟨ch, rfl, hd⟩) hl)
      · next hd =>
        cases h
        exact .invalidBit ch rfl (not_not.1 h1) (not_not.1 h2) h3' hd
  | decraw bit =>
    simp only [exec, execDecraw] at h
    split_ifs at h with h1 h2 h3
    · cases h; exact .quiet .nullTree (show Quiet .decraw .nullTree by decide)
    · cases h; exact .quiet .sequence (show Quiet .decraw .sequence by decide)
    · cases h; exact .quiet .rootKind (show Quiet .decraw .rootKind by decide)
    · have h3' : (rootNode s).leaf = false := by simpa using h3
      rcases walkStep_cases .decraw (digitOfBit bit) s with ⟨hl, h'⟩ | ⟨hl, h'⟩ <;> rw [h'] at h <;> cases h
      · exact .success _ _ (.digitLeaf _ _ (not_not.1 h1) (not_not.1 h2) h3' (.inr ⟨bit, rfl, rfl⟩) hl)
      · exact .success _ _ (.digitInternal _ _ (not_not.1 h1) (not_not.1 h2) h3' (.inr ⟨bit, rfl, rfl⟩) hl)
  | decroot =>
    simp only [exec, execDecroot] at h
    split_ifs at h with h1 h2 h3 <;> cases h
    · exact .quiet .nullTree (show Quiet .decroot .nullTree by decide)
    · exact .quiet .sequence (show Quiet .decroot .sequence by decide)
    · exact .success _ _ (.decroot (not_not.1 h1) (not_not.1 h2) h3)
    · exact .quiet .rootKind (show Quiet .decroot .rootKind by decide)
  | decend =>
    simp only [exec, execDecend] at h
    split_ifs at h with h1 h2 h3 <;> cases h
    · exact .quiet .nullTree (show Quiet .decend .nullTree by decide)
    · exact .quiet .sequence (show Quiet .decend .sequence by decide)
    · exact .truncated rfl (not_not.1 h1) (not_not.1 h2) h3
    · exact .success _ _ (.decend (not_not.1 h1) (not_not.1 h2) (not_not.1 h3))

end Sys2Proof.Machine
end

