-- ==== Sys2Proof/Laws/Heap.lean ====
section
/-!
SUPPORT. What the heap operations do to the set of nodes in the heap (40_builder R103, R104): an insert adds
one node, an extract takes one out, and the sizes follow.
-/

namespace Sys2Proof.Machine

/-- The first `n` slots. -/
def slots (v : Vector NodeIndex 256) (n : Nat) : List NodeIndex := (List.range n).map (slotAt v)

theorem heapContents_eq (h : MinHeap) : heapContents h = slots h.slots h.size.toNat := rfl

@[simp] theorem length_slots (v : Vector NodeIndex 256) (n : Nat) : (slots v n).length = n := by simp [slots]

theorem slots_succ (v : Vector NodeIndex 256) (n : Nat) : slots v (n + 1) = slots v n ++ [slotAt v n] := by
  simp [slots, List.range_succ]

theorem slots_succ_eq_cons (v : Vector NodeIndex 256) (n : Nat) :
    slots v (n + 1) = slotAt v 0 :: (List.range n).map (fun i => slotAt v (i + 1)) := by
  simp [slots, List.range_succ_eq_map, Function.comp_def]

theorem slotAt_setSlot (v : Vector NodeIndex 256) (i j : Nat) (x : NodeIndex) (hi : i < 256) :
    slotAt (setSlot v i x) j = if i = j then x else slotAt v j := by
  by_cases h : i = j
  · subst h; simp [slotAt, setSlot, hi]
  · simp [slotAt, setSlot, h]

/-- A swap reads as the two slots exchanged (40_builder R103). -/
theorem slotAt_swapSlots (v : Vector NodeIndex 256) (i j k : Nat) (hi : i < 256) (hj : j < 256) :
    slotAt (swapSlots v i j) k = if k = j then slotAt v i else if k = i then slotAt v j else slotAt v k := by
  simp only [swapSlots, slotAt_setSlot _ _ _ _ hi, slotAt_setSlot _ _ _ _ hj, eq_comm (a := k)]

theorem slots_swapSlots_perm (v : Vector NodeIndex 256) (i j n : Nat) (hi : i < n) (hj : j < n) (hn : n ≤ 256) :
    (slots (swapSlots v i j) n).Perm (slots v n) := by
  have hfun : slotAt (swapSlots v i j) = slotAt v ∘ Equiv.swap i j := by
    funext k
    rw [slotAt_swapSlots v i j k (by omega) (by omega), Function.comp_apply, Equiv.swap_apply_def]
    split_ifs with h1 h2 h3
    · rw [← h2, h1]
    · rfl
    · rfl
    · rfl
  have hrange : ((List.range n).map (Equiv.swap i j)).Perm (List.range n) := by
    refine (List.perm_ext_iff_of_nodup (List.nodup_range.map (Equiv.injective _)) List.nodup_range).2 fun k => ?_
    simp only [List.mem_map, List.mem_range]
    constructor
    · rintro ⟨m, hm, rfl⟩
      rw [Equiv.swap_apply_def]; split_ifs <;> omega
    · intro hk
      refine ⟨Equiv.swap i j k, ?_, Equiv.swap_apply_self _ _ _⟩
      rw [Equiv.swap_apply_def]; split_ifs <;> omega
  have := hrange.map (slotAt v)
  simpa [slots, hfun] using this

/-- Sifting up rearranges the heap and changes nothing else (40_builder R103). -/
theorem slots_siftUp_perm (a : Arena) (n : Nat) (hn : n ≤ 256) (fuel i : Nat) (v : Vector NodeIndex 256)
    (hi : i < n) : (slots (siftUp a fuel i v) n).Perm (slots v n) := by
  induction fuel generalizing i v with
  | zero => exact List.Perm.refl _
  | succ fuel ih =>
    unfold siftUp
    split_ifs with h0 hk
    · exact List.Perm.refl _
    · exact (ih _ _ (by omega)).trans (slots_swapSlots_perm v i _ n hi (by omega) hn)
    · exact List.Perm.refl _

/-- The slot sifted to is the slot itself or one of its children below `n` (40_builder R104). -/
theorem leastSlot_cases (a : Arena) (n i : Nat) (v : Vector NodeIndex 256) :
    leastSlot a n i v = i ∨ (leastSlot a n i v = 2 * i + 1 ∧ 2 * i + 1 < n) ∨
      (leastSlot a n i v = 2 * i + 2 ∧ 2 * i + 2 < n) := by
  unfold leastSlot
  dsimp only
  split_ifs with h1 h2 h2
  · exact .inr (.inr ⟨rfl, h2.1⟩)
  · exact .inr (.inl ⟨rfl, h1.1⟩)
  · exact .inr (.inr ⟨rfl, h2.1⟩)
  · exact .inl rfl

/-- Sifting down rearranges the heap and changes nothing else (40_builder R104). -/
theorem slots_siftDown_perm (a : Arena) (n : Nat) (hn : n ≤ 256) (fuel i : Nat) (v : Vector NodeIndex 256)
    (hi : i < n) : (slots (siftDown a n fuel i v) n).Perm (slots v n) := by
  induction fuel generalizing i v with
  | zero => exact List.Perm.refl _
  | succ fuel ih =>
    unfold siftDown
    split_ifs with h
    · exact List.Perm.refl _
    · have hm : leastSlot a n i v < n := by
        rcases leastSlot_cases a n i v with h' | ⟨h', _⟩ | ⟨h', _⟩ <;> omega
      exact (ih _ _ hm).trans (slots_swapSlots_perm v i _ n hi hm hn)

theorem slots_setSlot_of_le (v : Vector NodeIndex 256) (i n : Nat) (x : NodeIndex) (hi : i < 256) (hn : n ≤ i) :
    slots (setSlot v i x) n = slots v n := by
  refine List.map_congr_left fun k hk => ?_
  rw [slotAt_setSlot _ _ _ _ hi, if_neg]
  have := List.mem_range.1 hk
  omega

theorem heapInsert_size (a : Arena) (x : NodeIndex) (h : MinHeap) (hs : h.size.toNat < 256) :
    (heapInsert a x h).size.toNat = h.size.toNat + 1 := by
  show (h.size + 1).toNat = _
  rw [BitVec.toNat_add]
  exact Nat.mod_eq_of_lt (show h.size.toNat + 1 < 512 by omega)

theorem heapExtract_size (a : Arena) (h : MinHeap) (hs : 1 ≤ h.size.toNat) :
    (heapExtract a h).2.size.toNat = h.size.toNat - 1 := by
  show (h.size - 1).toNat = _
  have hlt := h.size.isLt
  rw [BitVec.toNat_sub]
  show (512 - 1 + h.size.toNat) % 512 = h.size.toNat - 1
  omega

/-- `HeapInsert(x)` adds `x` to the nodes in the heap and keeps the others (40_builder R103). -/
theorem heapInsert_perm (a : Arena) (x : NodeIndex) (h : MinHeap) (hs : h.size.toNat < 256) :
    (heapContents (heapInsert a x h)).Perm (x :: heapContents h) := by
  rw [heapContents_eq, heapInsert_size a x h hs]
  refine (slots_siftUp_perm a _ (by omega) _ _ _ (by omega)).trans ?_
  rw [slots_succ, slots_setSlot_of_le _ _ _ _ hs le_rfl, slotAt_setSlot _ _ _ _ hs, if_pos rfl]
  exact List.perm_append_singleton x _

/-- `HeapExtract()` takes the node it returns out of the heap and keeps the others (40_builder R104). -/
theorem heapExtract_perm (a : Arena) (h : MinHeap) (h1 : 1 ≤ h.size.toNat) (h2 : h.size.toNat ≤ 256) :
    (heapContents h).Perm ((heapExtract a h).1 :: heapContents (heapExtract a h).2) := by
  obtain ⟨m, hm⟩ : ∃ m, h.size.toNat = m + 1 := ⟨h.size.toNat - 1, by omega⟩
  have hsize : (h.size - 1).toNat = m := by
    have := heapExtract_size a h h1
    rw [show (heapExtract a h).2.size = h.size - 1 from rfl] at this
    omega
  have hext : heapExtract a h = (slotAt h.slots 0,
      { slots := if 0 < m then siftDown a m m 0 (setSlot h.slots 0 (slotAt h.slots m)) else h.slots
        size := h.size - 1 }) := by
    unfold heapExtract
    simp only [hsize]
  rw [hext, heapContents_eq, heapContents_eq]
  simp only [hsize, hm]
  rw [slots_succ_eq_cons]
  refine List.Perm.cons _ ?_
  cases m with
  | zero => simp [slots]
  | succ k =>
    rw [if_pos (Nat.succ_pos k)]
    refine List.Perm.trans ?_ (slots_siftDown_perm a (k + 1) (by omega) _ 0 _ (by omega)).symm
    rw [slots_succ_eq_cons, slotAt_setSlot _ _ _ _ (by omega), if_pos rfl, List.range_succ, List.map_append]
    have : (List.range k).map (fun i => slotAt (setSlot h.slots 0 (slotAt h.slots (k + 1))) (i + 1)) =
        (List.range k).map (fun i => slotAt h.slots (i + 1)) := by
      refine List.map_congr_left fun i _ => ?_
      rw [slotAt_setSlot _ _ _ _ (by omega), if_neg (by omega)]
    rw [this]
    exact List.perm_append_singleton _ _

end Sys2Proof.Machine
end

