-- ==== Sys2Proof/Laws/PerInstr.lean ====
section
/-!
SUPPORT. The families of facts that hold of every command as syntax, one lemma per constructor.
-/

/-! EncodingFields: the encoded word has the opcode of its mnemonic in `CMD[31:24]` and 0 in every reserved bit
(30_encoding R82, R83). -/

namespace Sys2Proof.Laws.EncodingFields

def Statement (i : Instr) : Prop :=
  opcodeField (encode i).1 = i.mnemonic.opcode ∧
    operandField (encode i).1 &&& reservedMask i.mnemonic.format = 0

/-- It suffices that the field bits avoid the reserved mask. -/
theorem of_fieldBits (i : Instr) (h : i.fieldBits &&& reservedMask i.mnemonic.format = 0) : Statement i :=
  ⟨opcodeField_append _ _, by rw [show (encode i).1 = i.mnemonic.opcode ++ i.fieldBits from rfl, operandField_append]; exact h⟩

theorem sym_fits (sym : BitVec 8) : (0#16 ++ sym : BitVec 24) &&& 0xFFFF00 = 0 := by
  revert sym; decide +kernel

theorem readcode_fits (sym : BitVec 8) (k : BitVec 3) : (0#13 ++ k ++ sym : BitVec 24) &&& 0xFFF800 = 0 := by
  revert sym k; decide +kernel

theorem idx_fits (idx : BitVec 9) : (0#15 ++ idx : BitVec 24) &&& 0xFFFE00 = 0 := by
  revert idx; decide +kernel

theorem sel_fits (sel : BitVec 4) : (0#20 ++ sel : BitVec 24) &&& 0xFFFFF0 = 0 := by
  revert sel; decide +kernel

theorem bit_fits (bit : BitVec 1) : (0#23 ++ bit : BitVec 24) &&& 0xFFFFFE = 0 := by
  revert bit; decide +kernel

theorem nop : Statement .nop := of_fieldBits _ (by decide)
theorem clear : Statement .clear := of_fieldBits _ (by decide)
theorem load (sym : Symbol) (count : Freq) : Statement (.load sym count) := of_fieldBits _ (sym_fits sym)
theorem build : Statement .build := of_fieldBits _ (by decide)
theorem gencodes : Statement .gencodes := of_fieldBits _ (by decide)
theorem lookup (sym : Symbol) : Statement (.lookup sym) := of_fieldBits _ (sym_fits sym)
theorem readcode (sym : Symbol) (k : BitVec 3) : Statement (.readcode sym k) := of_fieldBits _ (readcode_fits sym k)
theorem nodefreq (idx : NodeIndex) : Statement (.nodefreq idx) := of_fieldBits _ (idx_fits idx)
theorem nodelink (idx : NodeIndex) : Statement (.nodelink idx) := of_fieldBits _ (idx_fits idx)
theorem info (sel : BitVec 4) : Statement (.info sel) := of_fieldBits _ (sel_fits sel)
theorem decstart : Statement .decstart := of_fieldBits _ (by decide)
theorem decbit (ch : BitVec 8) : Statement (.decbit ch) := of_fieldBits _ (sym_fits ch)
theorem decraw (bit : BitVec 1) : Statement (.decraw bit) := of_fieldBits _ (bit_fits bit)
theorem decroot : Statement .decroot := of_fieldBits _ (by decide)
theorem decend : Statement .decend := of_fieldBits _ (by decide)

end Sys2Proof.Laws.EncodingFields

/-! LineForm: the line a command is written as is well-formed and assembles back to the command
(30_encoding R83, R84, R91). -/

namespace Sys2Proof.Laws.LineForm

def Statement (i : Instr) : Prop := i.wellFormed = true ∧ i.toLine.toInstr = some i

/-- A command whose line is well-formed and whose operands read back assembles to itself. -/
theorem of_parts (i : Instr) (h : i.wellFormed = true) (hb : lineInstr i.toLine = some i) : Statement i :=
  ⟨h, (if_pos h).trans hb⟩

/-- A bit vector's number fits its width, so one operand fits its field. -/
theorem fits_one {w : Nat} (x : BitVec w) : operandsFit [w] [x.toNat] = true := by
  simp [operandsFit, x.isLt]

theorem fits_two {v w : Nat} (x : BitVec v) (y : BitVec w) : operandsFit [v, w] [x.toNat, y.toNat] = true := by
  simp [operandsFit, x.isLt, y.isLt]

theorem nop : Statement .nop := of_parts _ rfl rfl
theorem clear : Statement .clear := of_parts _ rfl rfl
theorem load (sym : Symbol) (count : Freq) : Statement (.load sym count) := of_parts _ (fits_two sym count) (by simp [lineInstr, Instr.toLine])
theorem build : Statement .build := of_parts _ rfl rfl
theorem gencodes : Statement .gencodes := of_parts _ rfl rfl
theorem lookup (sym : Symbol) : Statement (.lookup sym) := of_parts _ (fits_one sym) (by simp [lineInstr, Instr.toLine])
theorem readcode (sym : Symbol) (k : BitVec 3) : Statement (.readcode sym k) := of_parts _ (fits_two sym k) (by simp [lineInstr, Instr.toLine])
theorem nodefreq (idx : NodeIndex) : Statement (.nodefreq idx) := of_parts _ (fits_one idx) (by simp [lineInstr, Instr.toLine])
theorem nodelink (idx : NodeIndex) : Statement (.nodelink idx) := of_parts _ (fits_one idx) (by simp [lineInstr, Instr.toLine])
theorem info (sel : BitVec 4) : Statement (.info sel) := of_parts _ (fits_one sel) (by simp [lineInstr, Instr.toLine])
theorem decstart : Statement .decstart := of_parts _ rfl rfl
theorem decbit (ch : BitVec 8) : Statement (.decbit ch) := of_parts _ (fits_one ch) (by simp [lineInstr, Instr.toLine])
theorem decraw (bit : BitVec 1) : Statement (.decraw bit) := of_parts _ (fits_one bit) (by simp [lineInstr, Instr.toLine])
theorem decroot : Statement .decroot := of_parts _ rfl rfl
theorem decend : Statement .decend := of_parts _ rfl rfl

end Sys2Proof.Laws.LineForm
end

