-- ==== Sys2Proof/Laws/Traverse.lean ====
section
/-!
SUPPORT. What the walk's operations do (41_codegen R131): a push reads back, and one round of the loop at a
leaf and at an internal node.
-/

namespace Sys2Proof.Machine

@[simp] theorem push_sp (w : Walk) (p : Pending) : (push w p).sp = w.sp + 1 := rfl

@[simp] theorem push_path (w : Walk) (p : Pending) : (push w p).path = w.path := rfl

/-- The entry pushed is the entry at `SP`, and the entries below stay (41_codegen R131). -/
theorem pendingAt_push (w : Walk) (p : Pending) (i : Nat) (h : w.sp.toNat < 256) :
    pendingAt (push w p).stack i = if i = w.sp.toNat then p else pendingAt w.stack i := by
  by_cases hi : i = w.sp.toNat
  · subst hi; simp [pendingAt, push, h]
  · simp [pendingAt, push, hi, Ne.symm hi]

/-- The last leaf ends the walk (41_codegen R131). -/
theorem walkLoop_last (a : Arena) (fuel : Nat) (n : NodeIndex) (d : Nat) (w : Walk) (t : CodeTable)
    (hl : (nodeAt a n.toNat).leaf = true) (hs : w.sp = 0) :
    walkLoop a (fuel + 1) n d w t = some (w, recordCode t (nodeAt a n.toNat).sym d w.path) := by
  simp [walkLoop, hl, hs]

/-- At a leaf with a pending right child, the leaf is coded and the walk goes on at that child
(41_codegen R131). -/
theorem walkLoop_leaf (a : Arena) (fuel : Nat) (n : NodeIndex) (d : Nat) (w : Walk) (t : CodeTable)
    (hl : (nodeAt a n.toNat).leaf = true) (hs : w.sp ≠ 0) :
    walkLoop a (fuel + 1) n d w t =
      walkLoop a fuel (pendingAt w.stack (w.sp - 1).toNat).node (pendingAt w.stack (w.sp - 1).toNat).depth.toNat
        { w with
          sp := w.sp - 1
          path := setDigit w.path ((pendingAt w.stack (w.sp - 1).toNat).depth.toNat - 1) true }
        (recordCode t (nodeAt a n.toNat).sym d w.path) := by
  simp only [walkLoop, hl, if_true, if_neg hs]

/-- At an internal node the right child is pushed and the walk goes on at the left one (41_codegen R131). -/
theorem walkLoop_internal (a : Arena) (fuel : Nat) (n : NodeIndex) (d : Nat) (w : Walk) (t : CodeTable)
    (hl : (nodeAt a n.toNat).leaf = false) :
    walkLoop a (fuel + 1) n d w t =
      walkLoop a fuel (nodeAt a n.toNat).left (d + 1)
        { push w { node := (nodeAt a n.toNat).right, depth := BitVec.ofNat 8 (d + 1) } with
          path := setDigit w.path d false } t := by
  simp [walkLoop, hl]

/-- A walk that ends leaves `SP = 0` (10_state R37). -/
theorem walkLoop_sp (a : Arena) (fuel : Nat) (n : NodeIndex) (d : Nat) (w : Walk) (t : CodeTable)
    (r : Walk × CodeTable) (h : walkLoop a fuel n d w t = some r) : r.1.sp = 0 := by
  induction fuel generalizing n d w t with
  | zero => cases h
  | succ fuel ih =>
    cases hl : (nodeAt a n.toNat).leaf with
    | false => rw [walkLoop_internal _ _ _ _ _ _ hl] at h; exact ih _ _ _ _ h
    | true =>
      by_cases hs : w.sp = 0
      · rw [walkLoop_last _ _ _ _ _ _ hl hs] at h
        cases h; exact hs
      · rw [walkLoop_leaf _ _ _ _ _ _ hl hs] at h; exact ih _ _ _ _ h

end Sys2Proof.Machine
end

