-- ==== Sys2Proof/Tests/Slice0.lean ====
section
/-!
SUPPORT. The model's own tests. Expected results are those of spec/95_test_vectors.md (the vector is named) or are
worked out from the rule named; the small states are written from the end states that file lists.
-/

namespace Sys2Proof.Tests

open Sys2Proof Sys2Proof.Machine

set_option Elab.async false

/-! Well-formedness: one ill-formed line for each check (30_encoding R83, R84, R91). -/

theorem test_wf_good_line : (Line.mk .load [0x61, 2]).wellFormed = true := by decide
theorem test_wf_too_few_operands : (Line.mk .load [0x61]).wellFormed = false := by decide
theorem test_wf_too_many_operands : (Line.mk .nop [0]).wellFormed = false := by decide
theorem test_wf_symbol_too_wide : (Line.mk .lookup [256]).wellFormed = false := by decide
theorem test_wf_count_too_wide : (Line.mk .load [0x61, 0x100000000]).wellFormed = false := by decide
theorem test_wf_k_too_wide : (Line.mk .readcode [0x61, 8]).wellFormed = false := by decide
theorem test_wf_index_too_wide : (Line.mk .nodefreq [512]).wellFormed = false := by decide
theorem test_wf_index_too_wide_link : (Line.mk .nodelink [512]).wellFormed = false := by decide
theorem test_wf_selector_too_wide : (Line.mk .info [16]).wellFormed = false := by decide
theorem test_wf_char_too_wide : (Line.mk .decbit [256]).wellFormed = false := by decide
theorem test_wf_bit_too_wide : (Line.mk .decraw [2]).wellFormed = false := by decide

/-! Decoding: a word for every constructor, from the bit maps of 30_encoding R83 and the opcodes of R87. -/

theorem test_decode_nop : decode 0x00000000 7 = .ok .nop := by decide
theorem test_decode_clear : decode 0x01000000 7 = .ok .clear := by decide
theorem test_decode_load : decode 0b00000010_00000000_00000000_01100001 2 = .ok (.load 0x61 2) := by decide
theorem test_decode_build : decode 0x03000000 7 = .ok .build := by decide
theorem test_decode_gencodes : decode 0x04000000 7 = .ok .gencodes := by decide
theorem test_decode_lookup : decode 0b00000101_00000000_00000000_01100010 7 = .ok (.lookup 0x62) := by decide
theorem test_decode_readcode : decode 0b00000110_00000000_00000101_01100001 7 = .ok (.readcode 0x61 5) := by decide
theorem test_decode_nodefreq : decode 0b00000111_00000000_00000001_00000011 7 = .ok (.nodefreq 259) := by decide
theorem test_decode_nodelink : decode 0b00001000_00000000_00000000_00000100 7 = .ok (.nodelink 4) := by decide
theorem test_decode_info : decode 0b00001001_00000000_00000000_00001111 7 = .ok (.info 15) := by decide
theorem test_decode_decstart : decode 0x10000000 7 = .ok .decstart := by decide
theorem test_decode_decbit : decode 0b00010001_00000000_00000000_00110001 7 = .ok (.decbit 0x31) := by decide
theorem test_decode_decraw : decode 0b00010010_00000000_00000000_00000001 7 = .ok (.decraw 1) := by decide
theorem test_decode_decroot : decode 0x13000000 7 = .ok .decroot := by decide
theorem test_decode_decend : decode 0x14000000 7 = .ok .decend := by decide

/-- The decode errors of 95_test_vectors L2.1. -/
theorem test_decode_errors :
    decode 0x0A000000 0 = .error (.reservedOpcode 0x0A) ∧ decode 0xFF000000 0 = .error (.reservedOpcode 0xFF) ∧
    decode 0x00000001 0 = .error (.reservedBits .nop) ∧ decode 0x12000002 0 = .error (.reservedBits .decraw) ∧
    decode 0x06000861 0 = .error (.reservedBits .readcode) ∧ decode 0x09000010 0 = .error (.reservedBits .info) ∧
    decode 0x02000161 0 = .error (.reservedBits .load) := by decide

/-- Least significant byte first (20_memory R62). -/
theorem test_decode_bytes :
    decodeBytes [0x61, 0, 0, 0x02, 0x78, 0x56, 0x34, 0x12, 0xAA] = .ok (.load 0x61 0x12345678, [0xAA]) := by decide

theorem test_decode_bytes_truncated : decodeBytes [0x61, 0, 0, 0x02, 0x78, 0x56, 0x34] = .error .truncated := by decide

theorem test_encode_load : encode (.load 0x61 2) = (0x02000061, 2) := by decide

theorem test_table_word : decodeTableWord 32 0x06000102 = some (.readcode 0x02 1) ∧ decodeTableWord 32 0x0A000000 = none := by
  decide

/-- `DECODE "10"` expands to DECSTART, two DECBITs and DECEND (30_encoding R92). -/
theorem test_assemble_decode :
    assemble [.decode [0x31, 0x30]] =
      some [(0x10000000, 0), (0x11000031, 0), (0x11000030, 0), (0x14000000, 0)] := by decide

/-! Small states. -/

/-- The records, at indices 0, 1, …, of an otherwise empty arena. -/
def arenaOf (l : List Node) : Arena := l.zipIdx.foldl (fun a p => setNode a p.2 p.1) State.reset.node

def inner (f : Freq) (l r : NodeIndex) : Node := { leaf := false, sym := 0, freq := f, left := l, right := r }

def seenOf (l : List Symbol) : Vector Bool 256 := l.foldl setFlag State.reset.seen

/-- Leaves a:2, b:3, c:2 (95_test_vectors B1). -/
def abcLeaves : List Node := [leafNode 0x61 2, leafNode 0x62 3, leafNode 0x63 2]

/-- B1 before BUILD. -/
def loaded3 : State :=
  { State.reset with nleaf := 3, nnode := 3, total := 7, node := arenaOf abcLeaves, seen := seenOf [0x61, 0x62, 0x63] }

/-- B1 after BUILD (95_test_vectors P1, end state). -/
def built3 : State :=
  { loaded3 with phase := .built, nnode := 5, root := 4, node := arenaOf (abcLeaves ++ [inner 4 0 2, inner 7 1 3]) }

/-- The code table of C1: a = "10", b = "0", c = "11". -/
def table3 : CodeTable :=
  recordCode (recordCode (recordCode State.reset.table 0x61 2 1) 0x62 1 0) 0x63 2 3

/-- B1 with C1's table and an open stream. -/
def active3 : State := { built3 with tv := true, table := table3, dstate := .active, cursor := 4 }

/-- One leaf a:4 (95_test_vectors B6). -/
def loaded1 : State :=
  { State.reset with nleaf := 1, nnode := 1, total := 4, node := arenaOf [leafNode 0x61 4], seen := seenOf [0x61] }

/-- B6 built, coded, with an open stream. -/
def active1 : State :=
  { loaded1 with phase := .built, tv := true, table := recordCode State.reset.table 0x61 0 0, dstate := .active }

/-- The next state of an outcome, or the reset state. -/
def nextOf (o : Result) : State :=
  match o with
  | .next t => t
  | .fault _ => State.reset
  | .refused _ => State.reset

/-- `(RSP, DATA)` a command answers. -/
def reply (i : Instr) (s : State) : Word × Word :=
  let t := nextOf (exec i s)
  (t.chan.rsp, t.chan.data)

/-! One step each, at most two per command. -/

theorem test_nop : reply .nop active3 = (0x00000000, 0) := by decide +kernel

/-- 95_test_vectors L2.5: after CLEAR, `INFO 0` reads 0 and `NODEFREQ 0` is out of range. -/
theorem test_clear :
    reply .clear active3 = (0x01000000, 0) ∧ (nextOf (exec .clear active3)).nnode = 0 ∧
      (nextOf (exec .clear active3)).dstate = .idle := by decide +kernel

/-- 40_builder R101, example. -/
theorem test_load :
    reply (.load 0x61 2) State.reset = (0x02000000, 0) ∧
      nodeAt (nextOf (exec (.load 0x61 2) State.reset)).node 0 = leafNode 0x61 2 := by decide +kernel

/-- 95_test_vectors, builder errors: precedence of ZeroCount and DuplicateSymbol over FreqOverflow. -/
theorem test_load_errors :
    reply (.load 0x61 0) loaded3 = (0x02000008, 0) ∧ reply (.load 0x61 0xFFFFFFFF) loaded3 = (0x02000007, 0) ∧
      reply (.load 0x64 0xFFFFFFF9) loaded3 = (0x02000009, 0) ∧ reply (.load 0x61 0) active3 = (0x02000006, 0) := by
  decide +kernel

/-- 95_test_vectors B1: nodes 3 and 4, ROOT and NNODE. -/
theorem test_build :
    reply .build loaded3 = (0x03000000, 4) ∧ nodeAt (nextOf (exec .build loaded3)).node 3 = inner 4 0 2 ∧
      nodeAt (nextOf (exec .build loaded3)).node 4 = inner 7 1 3 ∧ (nextOf (exec .build loaded3)).nnode = 5 := by
  decide +kernel

theorem test_build_errors : reply .build State.reset = (0x03000001, 0) ∧ reply .build active3 = (0x03000006, 0) := by
  decide +kernel

/-- 95_test_vectors B1, heap trace: the inserts give [0, 1, 2]; the first extract gives 0 and leaves [2, 1]. -/
theorem test_heap_trace :
    heapContents (fillHeap loaded3.node 3 State.reset.queue) = [0, 1, 2] ∧
      (heapExtract loaded3.node (fillHeap loaded3.node 3 State.reset.queue)).1 = 0 ∧
      heapContents (heapExtract loaded3.node (fillHeap loaded3.node 3 State.reset.queue)).2 = [2, 1] := by
  decide +kernel

/-- 95_test_vectors B3: inserting node 4 of key (3, 4) sifts it up past leaf 2 of key (4, 2), giving [4, 3, 2]. -/
theorem test_heap_sift_up :
    let a := arenaOf [leafNode 0x61 1, leafNode 0x62 2, leafNode 0x63 4, leafNode 0x64 8, inner 3 0 1]
    let two := heapInsert a 3 (heapInsert a 2 State.reset.queue)
    heapContents (heapInsert a 4 two) = [4, 3, 2] := by decide +kernel

/-- 95_test_vectors C1. -/
theorem test_gencodes :
    let t := nextOf (exec .gencodes built3)
    reply .gencodes built3 = (0x04000000, 3) ∧ codeOf t.table 0x61 = [true, false] ∧
      codeOf t.table 0x62 = [false] ∧ codeOf t.table 0x63 = [true, true] := by decide +kernel

theorem test_gencodes_null_tree : reply .gencodes State.reset = (0x04000005, 0) := by decide +kernel

/-- An arena whose root is its own child is no tree: the walk has no end (41_codegen R131, log entry 9). -/
theorem test_gencodes_broken_tree :
    traverse { built3 with node := arenaOf [inner 1 0 0], root := 0 } = none := by decide +kernel

/-- 95_test_vectors C1 and its errors. -/
theorem test_lookup :
    reply (.lookup 0x62) active3 = (0x05000000, 1) ∧ reply (.lookup 0x7A) active3 = (0x05000002, 0) ∧
      reply (.lookup 0x61) built3 = (0x05000002, 0) := by decide +kernel

theorem test_readcode :
    reply (.readcode 0x61 0) active3 = (0x06000000, 1) ∧ reply (.readcode 0x63 0) active3 = (0x06000000, 3) ∧
      reply (.readcode 0x61 7) active3 = (0x06000000, 0) := by decide +kernel

/-- Digits 32..63 are word 1 (41_codegen R137). -/
theorem test_code_word : codeWord (0x00000ABC_12345678 : CodeVector) 1 = 0x00000ABC := by decide +kernel

/-- 95_test_vectors L2.5. -/
theorem test_nodefreq :
    reply (.nodefreq 4) active3 = (0x07000000, 7) ∧ reply (.nodefreq 5) active3 = (0x0700000A, 0) ∧
      reply (.nodefreq 511) active3 = (0x0700000A, 0) := by decide +kernel

theorem test_nodelink :
    reply (.nodelink 0) active3 = (0x08000000, 0x05840000) ∧ reply (.nodelink 3) active3 = (0x08000000, 0x400) ∧
      reply (.nodelink 4) active3 = (0x08000000, 0x601) := by decide +kernel

/-- 95_test_vectors D3 and L2.5. -/
theorem test_info :
    reply (.info 0) active3 = (0x09000000, 7) ∧ reply (.info 1) active3 = (0x09000000, 3) ∧
      reply (.info 2) active3 = (0x09000000, 5) ∧ reply (.info 3) active3 = (0x09000000, 4) ∧
      reply (.info 4) active3 = (0x09000000, 7) ∧ reply (.info 6) active3 = (0x0900000A, 0) := by decide +kernel

theorem test_info_failed : reply (.info 0) { active3 with dstate := .failed } = (0x09000000, 0xB) := by decide +kernel

/-- 42_decoder R151; a partial code is abandoned (95_test_vectors L2.4). -/
theorem test_decstart :
    reply .decstart { active3 with cursor := 3 } = (0x10000000, 4) ∧
      (nextOf (exec .decstart { active3 with cursor := 3 })).cursor = 4 := by decide +kernel

/-- 42_decoder R153, example. -/
theorem test_decbit :
    reply (.decbit 0x31) active3 = (0x11000000, 0) ∧ (nextOf (exec (.decbit 0x31) active3)).cursor = 3 ∧
      reply (.decbit 0x30) { active3 with cursor := 3 } = (0x11000000, 0x161) ∧
      (nextOf (exec (.decbit 0x30) { active3 with cursor := 3 })).cursor = 4 := by decide +kernel

/-- 95_test_vectors, decoder errors. -/
theorem test_decbit_errors :
    reply (.decbit 0x32) active3 = (0x11000003, 0) ∧ (nextOf (exec (.decbit 0x32) active3)).dstate = .failed ∧
      reply (.decbit 0x37) active1 = (0x1100000B, 0) ∧ (nextOf (exec (.decbit 0x37) active1)).dstate = .active ∧
      reply (.decbit 0x30) State.reset = (0x11000005, 0) ∧ reply (.decbit 0x31) built3 = (0x11000006, 0) := by
  decide +kernel

/-- 42_decoder R155, example. -/
theorem test_decraw :
    reply (.decraw 0) active3 = (0x12000000, 0x162) ∧ (nextOf (exec (.decraw 0) active3)).cursor = 4 ∧
      reply (.decraw 1) active1 = (0x1200000B, 0) := by decide +kernel

theorem test_decroot :
    reply .decroot active1 = (0x13000000, 0x161) ∧ reply .decroot active3 = (0x1300000B, 0) := by decide +kernel

theorem test_decend :
    reply .decend active3 = (0x14000000, 0) ∧ (nextOf (exec .decend active3)).dstate = .idle ∧
      reply .decend { active3 with cursor := 3 } = (0x14000004, 0) ∧
      (nextOf (exec .decend { active3 with cursor := 3 })).dstate = .failed := by decide +kernel

/-! The channel. -/

/-- A table word placed after reset runs at the first step. -/
theorem test_first_step : step (State.reset.withFetchWord 32 0x03000000) = exec .build (State.reset.withFetchWord 32 0x03000000) :=
  rfl

/-- A reserved opcode answers `IllegalCommand` with the opcode echoed (95_test_vectors L2.1). -/
theorem test_illegal_command :
    (nextOf (step (active3.withFetchWord 32 0x0A000000))).chan.rsp = 0x0A00000C ∧
      (nextOf (step (active3.withFetchWord 32 0x0A000000))).cursor = 4 := by decide +kernel

/-- `rst` wins over a command about to perform (95_test_vectors R-1). -/
theorem test_reset_cuts_command :
    let s := { active3.withFetchWord 32 0x14000000 with
      chan := { (active3.withFetchWord 32 0x14000000).chan with host := [resetPins] } }
    (nextOf (step s)).chan.rspv = false ∧ (nextOf (step s)).chan.busy = false ∧ (nextOf (step s)).nnode = 0 := by
  decide +kernel

/-! States that meet the invariants of 10_state. -/

theorem active3_inv : active3.Inv where
  counts := ⟨by decide +kernel, by decide +kernel, by decide +kernel⟩
  leaves := ⟨by decide +kernel, by decide +kernel, by decide +kernel, by decide +kernel⟩
  tree := fun _ => {
    internal := by
      intro i h1 h2
      have h1' : 3 ≤ i := h1
      have h2' : i < 5 := h2
      obtain rfl | rfl : i = 3 ∨ i = 4 := by omega
      · decide +kernel
      · decide +kernel
    owned := by
      have main : ∀ j, j < 4 → ∃ p, p < 5 ∧ (3 ≤ p ∧ ((nodeAt active3.node p).left.toNat = j ∨
          (nodeAt active3.node p).right.toNat = j)) ∧ ∀ q, q < 5 → 3 ≤ q →
          ((nodeAt active3.node q).left.toNat = j ∨ (nodeAt active3.node q).right.toNat = j) → q = p := by
        decide +kernel
      intro j hj
      obtain ⟨p, hp, ⟨h3, hc⟩, hu⟩ := main j hj
      exact ⟨p, ⟨h3, hp, hc⟩, fun q h1 h2 h => hu q h2 h1 h⟩
    rootFree := by
      have main : ∀ p, p < 5 → 3 ≤ p → ¬ ((nodeAt active3.node p).left.toNat = 4 ∨
          (nodeAt active3.node p).right.toNat = 4) := by decide +kernel
      intro p h1 h2 h
      exact main p h2 h1 h
    rootTotal := by decide +kernel }
  table := {
    empty := by decide +kernel
    built := by decide +kernel
    valid := by decide +kernel
    codes := by
      have main : ∀ sym, flagAt active3.table.valid sym = true → sym = 0x61 ∨ sym = 0x62 ∨ sym = 0x63 := by
        decide +kernel
      have tail : ∀ sym ∈ [(0x61 : Symbol), 0x62, 0x63], ∀ k, k < 256 → (lenAt active3.table sym).toNat ≤ k →
          (bitsAt active3.table sym).getLsbD k = false := by decide +kernel
      intro sym hs
      have hm := main sym hs
      refine ⟨?_, fun k hk => ?_⟩
      · rcases hm with rfl | rfl | rfl
        · exact ⟨0, by decide +kernel⟩
        · exact ⟨1, by decide +kernel⟩
        · exact ⟨2, by decide +kernel⟩
      · by_cases h : k < 256
        · exact tail sym (by rcases hm with rfl | rfl | rfl <;> decide) k h hk
        · exact BitVec.getLsbD_of_ge _ _ (Nat.le_of_not_lt h) }
  decoder := ⟨by decide +kernel, fun _ => .inl rfl⟩
  rest := ⟨rfl, rfl, by decide⟩

theorem loaded3_inv : loaded3.Inv where
  counts := ⟨by decide +kernel, by decide +kernel, by decide +kernel⟩
  leaves := ⟨by decide +kernel, by decide +kernel, by decide +kernel, by decide +kernel⟩
  tree := fun h => by cases h
  table := ⟨fun _ sym => flagAt_replicate false sym, (by decide +kernel), (by decide +kernel),
    fun sym h => by rw [show loaded3.table.valid = Vector.replicate 256 false from rfl, flagAt_replicate] at h; cases h⟩
  decoder := ⟨by decide +kernel, by decide +kernel⟩
  rest := ⟨rfl, rfl, by decide⟩

theorem loaded1_inv : loaded1.Inv where
  counts := ⟨by decide +kernel, by decide +kernel, by decide +kernel⟩
  leaves := ⟨by decide +kernel, by decide +kernel, by decide +kernel, by decide +kernel⟩
  tree := fun h => by cases h
  table := ⟨fun _ sym => flagAt_replicate false sym, (by decide +kernel), (by decide +kernel),
    fun sym h => by rw [show loaded1.table.valid = Vector.replicate 256 false from rfl, flagAt_replicate] at h; cases h⟩
  decoder := ⟨by decide +kernel, by decide +kernel⟩
  rest := ⟨rfl, rfl, by decide⟩

theorem active1_inv : active1.Inv where
  counts := ⟨by decide +kernel, by decide +kernel, by decide +kernel⟩
  leaves := ⟨by decide +kernel, by decide +kernel, by decide +kernel, by decide +kernel⟩
  tree := fun _ => {
    internal := fun i h1 h2 => by
      have h1' : 1 ≤ i := h1
      have h2' : i < 1 := h2
      omega
    owned := fun j hj => absurd hj (Nat.not_lt_zero j)
    rootFree := fun p h1 h2 => by
      have h1' : 1 ≤ p := h1
      have h2' : p < 1 := h2
      omega
    rootTotal := by decide +kernel }
  table := {
    empty := by decide +kernel
    built := by decide +kernel
    valid := by decide +kernel
    codes := by
      have main : ∀ sym, flagAt active1.table.valid sym = true → sym = 0x61 := by decide +kernel
      intro sym hs
      obtain rfl := main sym hs
      refine ⟨⟨0, by decide +kernel⟩, fun k _ => ?_⟩
      rw [show bitsAt active1.table 0x61 = 0 by decide +kernel]
      exact BitVec.getLsbD_zero }
  decoder := ⟨by decide +kernel, fun _ => .inl rfl⟩
  rest := ⟨rfl, rfl, by decide⟩

/-! Witnesses: concrete states and operands that meet all the hypotheses of an obligation together, one for each
of its clauses. The name says which obligation. -/

/-- Whether an outcome is a next state. -/
def isNext (o : Result) : Bool :=
  match o with
  | .next _ => true
  | .fault _ => false
  | .refused _ => false

theorem exists_next {o : Result} (h : isNext o = true) : ∃ t, o = .next t := by
  cases o with
  | next t => exact ⟨t, rfl⟩
  | fault _ => cases h
  | refused _ => cases h

theorem nextOf_eq {o : Result} (h : isNext o = true) : o = .next (nextOf o) := by
  obtain ⟨t, rfl⟩ := exists_next h
  rfl

/-- `s` with the words `(cmd, arg)` about to be performed. -/
def inFlight (s : State) (cmd arg : Word) : State :=
  { s with chan := { s.chan with busy := true, cmd := cmd, arg := arg } }

/-- `s` with a response offered and these inputs to come. -/
def held (s : State) (host : List Pins) : State :=
  { s with chan := { s.chan with rspv := true, rsp := 0x09000000, data := 7, host := host } }

/-- `s` with these inputs to come. -/
def withHost (s : State) (host : List Pins) : State := { s with chan := { s.chan with host := host } }

theorem witness_DecodeUndoesEncode :
    (Instr.load 0xFF 0xFFFFFFFF).wellFormed = true ∧ (Instr.readcode 0xFF 7).wellFormed = true ∧
      (Instr.nodefreq 511).wellFormed = true := by decide

theorem witness_DecodedWordIsItsEncoding :
    decode 0x060007FF 5 = .ok (.readcode 0xFF 7) ∧ decode 0x020000FF 0xFFFFFFFF = .ok (.load 0xFF 0xFFFFFFFF) := by
  decide

theorem witness_DecodesExactlyTheOpcodeTable :
    decode 0x0900000F 0 = .ok (.info 15) ∧
      ∃ row ∈ opcodeRows, row.1 = .info ∧ (0x0900000F : Word) &&& row.2.2 = row.2.1 := by decide

theorem witness_OnlyLoadReadsArg :
    (0x03000000 : Word).extractLsb' 24 8 ≠ 0x02 ∧ (0x020000FF : Word).extractLsb' 24 8 = 0x02 ∧
      decode 0x020000FF 7 = .ok (.load 0xFF 7) := by decide +kernel

/-- The lowest and highest reserved opcodes, and the lowest reserved bit of DECRAW. -/
theorem witness_ReservedWordIsIllegalCommand :
    (∀ cmd ∈ [(0x0A000000 : Word), 0x0F000000, 0x15000000, 0xFF000000, 0x12000002, 0x06000800],
      ∀ row ∈ opcodeRows, cmd &&& row.2.2 ≠ row.2.1) ∧
      ∀ cmd : Word, (inFlight active3 cmd 0).pins.rst = false ∧ (inFlight active3 cmd 0).chan.busy = true ∧
        (inFlight active3 cmd 0).chan.wait = 0 ∧ (inFlight active3 cmd 0).chan.cmd = cmd :=
  ⟨by simp [opcodeRows], fun _ => ⟨rfl, rfl, rfl, rfl⟩⟩

theorem witness_WellFormedLinesAssemble :
    (Line.mk .nodefreq [511]).wellFormed = true ∧ (Line.mk .nodefreq [512]).wellFormed = false := by decide

theorem witness_StepRunsDecodedCommand :
    let s := inFlight loaded3 0x03000000 9
    s.pins.rst = false ∧ s.chan.busy = true ∧ s.chan.wait = 0 ∧ decode s.chan.cmd s.chan.arg = .ok .build := by
  decide +kernel

theorem witness_StepRunsFetchedWord :
    decodeTableWord 32 0x12000001 = some (.decraw 1) ∧ decodeTableWord 64 0x0000000502000061 = some (.load 0x61 5) := by
  decide

theorem witness_ResetDominatesEveryEdge :
    let s := withHost (inFlight active3 0x14000000 0) [resetPins, offer 0x02000061 2]
    s.pins.rst = true ∧ s.popPins.hardReset.pins.rst = false ∧ s.popPins.hardReset.pins.cmdValid = true := by
  decide +kernel

theorem witness_ResetCutsTheCommandInFlight :
    let s := withHost (inFlight active3 0x14000000 0) [resetPins, ready, ready]
    s.pins.rst = true ∧ s.chan.busy = true ∧ ∀ p ∈ s.popPins.hardReset.chan.host.take 2, p.cmdValid = false := by
  decide +kernel

theorem witness_NothingAcceptedWhileBusyOrHeld :
    (inFlight active3 0x14000000 0).pins.rst = false ∧ (inFlight active3 0x14000000 0).chan.busy = true ∧
      ((held active3 [ready]).pins.rst = false ∧ (held active3 [ready]).chan.busy = false ∧
        (held active3 [ready]).chan.rspv = true ∧ (held active3 [ready]).pins.rspReady = true) ∧
      ((held active3 []).pins.rst = false ∧ (held active3 []).chan.busy = false ∧
        (held active3 []).chan.rspv = true ∧ (held active3 []).pins.rspReady = false) ∧
      (active3.pins.rst = false ∧ active3.chan.busy = false ∧ active3.chan.rspv = false) := by decide +kernel

theorem witness_ResponseHeldUntilTaken :
    let s := held active3 [offer 0x01000000 0, quietPins, ready]
    s.chan.busy = false ∧ s.chan.rspv = true ∧
      ∀ p ∈ s.chan.host.take 2, p.rst = false ∧ p.rspReady = false := by decide +kernel

theorem witness_CommandPerformsAfterLatency :
    let ps := List.replicate (Config.latency 0) quietPins
    let s := withHost loaded3 (offer 0x03000000 0 :: (ps ++ [ready]))
    s.chan.busy = false ∧ s.chan.rspv = false ∧ s.chan.host = offer 0x03000000 0 :: (ps ++ [ready]) ∧
      (offer 0x03000000 0).rst = false ∧ (offer 0x03000000 0).cmdValid = true ∧
      ps.length = Config.latency s.chan.accepted ∧ ∀ q ∈ ps, q.rst = false :=
  ⟨rfl, rfl, rfl, rfl, rfl, List.length_replicate, fun q hq => by rw [List.eq_of_mem_replicate hq]; rfl⟩

theorem witness_HandshakeGivesOneResponse :
    let ps := List.replicate (Config.latency 0) quietPins
    let s := withHost active3 (offer 0x00000000 0 :: (ps ++ ready :: []))
    s.chan.busy = false ∧ s.chan.rspv = false ∧ s.chan.host = offer 0x00000000 0 :: (ps ++ ready :: []) ∧
      (offer 0x00000000 0).rst = false ∧ (offer 0x00000000 0).cmdValid = true ∧
      ps.length = Config.latency s.chan.accepted ∧ (∀ q ∈ ps, q.rst = false) ∧
      ready.rst = false ∧ ready.rspReady = true ∧
      ∃ t, runCommand { s with
        chan := { s.chan with
          busy := true, cmd := (offer 0x00000000 0).cmdWord, arg := (offer 0x00000000 0).cmdArg, wait := 0
          accepted := s.chan.accepted + 1, host := ready :: [] } } = .next t :=
  ⟨rfl, rfl, rfl, rfl, rfl, List.length_replicate, fun q hq => by rw [List.eq_of_mem_replicate hq]; rfl, rfl, rfl,
    exists_next (by decide +kernel)⟩

theorem witness_IdleBlockKeepsItsState :
    active3.chan.busy = false ∧ active3.chan.rspv = false ∧ active3.pins.rst = false ∧
      active3.pins.cmdValid = false := by decide +kernel

theorem witness_ResponseIgnoresChannel : ∃ t, exec .decend active3 = .next t := exists_next (by decide +kernel)

/-- An edge that performs a BUILD, and one that performs a DECBIT. -/
theorem witness_StepKeepsInvariants :
    ((inFlight loaded3 0x03000000 0).Inv ∧ ∃ t, step (inFlight loaded3 0x03000000 0) = .next t) ∧
      ((inFlight active3 0x11000031 0).Inv ∧ ∃ t, step (inFlight active3 0x11000031 0) = .next t) :=
  ⟨⟨inv_withChan loaded3_inv _ (by decide), exists_next (by decide +kernel)⟩,
    inv_withChan active3_inv _ (by decide), exists_next (by decide +kernel)⟩

theorem witness_StepKeepsWorkingStateEmpty :
    loaded3.nleaf.toNat ≤ 256 ∧ RestOk (inFlight loaded3 0x03000000 0) ∧
      ∃ t, step (inFlight loaded3 0x03000000 0) = .next t :=
  ⟨by decide +kernel, (inv_withChan loaded3_inv _ (by decide)).rest, exists_next (by decide +kernel)⟩

theorem witness_EveryCommandResponds : Instr.build ≠ .gencodes ∧ active3.Inv := ⟨by decide, active3_inv⟩

/-- The two errors that enter `FAILED`, and one that changes nothing. -/
theorem witness_ErrorsChangeNothing :
    (isNext (exec (.decbit 0x32) active3) = true ∧ errOf (nextOf (exec (.decbit 0x32) active3)) = 3) ∧
      (isNext (exec .decend { active3 with cursor := 3 }) = true ∧
        errOf (nextOf (exec .decend { active3 with cursor := 3 })) = 4) ∧
      (isNext (exec .build active3) = true ∧ errOf (nextOf (exec .build active3)) = 6) := by decide +kernel

theorem witness_ResponseWordFormat :
    isNext (exec .build active3) = true ∧ errOf (nextOf (exec .build active3)) ≠ 0 ∧
      ∀ i, (inFlight active3 0x15000000 0).fetched ≠ .ok i := by
  refine ⟨by decide +kernel, by decide +kernel, fun i h => ?_⟩
  have he : (inFlight active3 0x15000000 0).fetched = .error (.reservedOpcode 0x15) := by decide +kernel
  rw [he] at h
  cases h

theorem witness_ErrorsPerCommand : ∃ t, exec (.nodelink 511) active3 = .next t := exists_next (by decide +kernel)

theorem witness_TreeReadOnlyOnceBuilt :
    (isNext (exec .gencodes active3) = true ∧ active3.phase = .built ∧ Instr.gencodes ≠ .clear) ∧
      (isNext (exec .build loaded3) = true ∧ loaded3.phase = .loading) := by decide +kernel

theorem witness_TableReadOnlyAndUnreadByDecoder :
    isNext (exec .decstart active3) = true ∧ Instr.decstart ≠ .gencodes ∧ Instr.decstart ≠ .clear ∧
      Instr.decstart.mnemonic ∈ [Mnemonic.decstart, .decbit, .decraw, .decroot, .decend] := by decide +kernel

theorem witness_LookupNeverReadsTree :
    (Instr.lookup 0x62).mnemonic ∈ [Mnemonic.lookup, .readcode] ∧ isNext (exec (.lookup 0x62) active3) = true := by
  decide +kernel

theorem witness_DecoderStateTransitions :
    (∃ t, exec .decend active3 = .next t) ∧
      (isNext (step (inFlight active3 0x14000000 0)) = true ∧
        (nextOf (step (inFlight active3 0x14000000 0))).dstate ≠ active3.dstate) ∧
      ((withHost active3 [resetPins]).pins.rst = true ∧ ∃ t, step (withHost active3 [resetPins]) = .next t) ∧
      active3.Inv ∧ active3.dstate ≠ .idle :=
  ⟨exists_next (by decide +kernel), by decide +kernel, ⟨rfl, exists_next (by decide +kernel)⟩, active3_inv,
    by decide +kernel⟩

theorem witness_ReadsHaveNoSideEffects :
    (Instr.readcode 0x61 7).mnemonic ∈ [Mnemonic.lookup, .readcode, .nodefreq, .nodelink, .info, .nop] := by decide

theorem witness_ClearEqualsHardReset :
    let s := withHost active3 [resetPins]
    (∃ t, exec .clear s = .next t) ∧ s.pins.rst = true ∧ ∃ r, step s = .next r :=
  ⟨exists_next (by decide +kernel), rfl, exists_next (by decide +kernel)⟩

/-- The last selectors that read a register and the first and last that raise `Range`. -/
theorem witness_InfoFollowsRule : (5 : BitVec 4) = 5 ∧ 6 ≤ (6 : BitVec 4).toNat ∧ 6 ≤ (15 : BitVec 4).toNat := by decide

/-- The last valid index, the first that is not, and the last there is. -/
theorem witness_NodefreqFollowsRule :
    (4 : NodeIndex).toNat < active3.nnode.toNat ∧ active3.nnode.toNat ≤ (5 : NodeIndex).toNat ∧
      active3.nnode.toNat ≤ (511 : NodeIndex).toNat := by decide +kernel

theorem witness_NodelinkFollowsRule :
    (0 : NodeIndex).toNat < loaded1.nnode.toNat ∧ loaded1.nnode.toNat ≤ (1 : NodeIndex).toNat := by decide +kernel

/-- `TOTAL` is 7, so 0xFFFFFFF8 is the last count that fits and 0xFFFFFFF9 the first that does not. -/
theorem witness_LoadFollowsRule :
    active3.phase ≠ .loading ∧
      (loaded3.phase = .loading ∧ flagAt loaded3.seen 0x61 = true ∧ flagAt loaded3.seen 0x64 = false ∧
        0xFFFFFFFF < loaded3.total.toNat + (0xFFFFFFF9 : Freq).toNat) ∧
      (loaded3.Inv ∧ (0xFFFFFFF8 : Freq) ≠ 0 ∧ loaded3.total.toNat + (0xFFFFFFF8 : Freq).toNat ≤ 0xFFFFFFFF) :=
  ⟨by decide +kernel, by decide +kernel, loaded3_inv, by decide, by decide +kernel⟩

/-- No leaf, the fewest leaves and the most. -/
theorem witness_BuildCompletes :
    active3.phase ≠ .loading ∧ (State.reset.phase = .loading ∧ State.reset.nleaf = 0) ∧
      (loaded1.phase = .loading ∧ 1 ≤ loaded1.nleaf.toNat ∧ loaded1.nleaf.toNat ≤ 256) ∧
      ∀ s : State, s = { State.reset with nleaf := 256 } →
        s.phase = .loading ∧ 1 ≤ s.nleaf.toNat ∧ s.nleaf.toNat ≤ 256 := by
  refine ⟨by decide +kernel, by decide +kernel, by decide +kernel, fun s hs => ?_⟩
  subst hs
  decide +kernel

theorem witness_BuildMakesStrictTree :
    (loaded3.Inv ∧ loaded3.phase = .loading ∧ 1 ≤ loaded3.nleaf.toNat) ∧
      (loaded1.Inv ∧ loaded1.phase = .loading ∧ 1 ≤ loaded1.nleaf.toNat) :=
  ⟨⟨loaded3_inv, rfl, by decide +kernel⟩, loaded1_inv, rfl, by decide +kernel⟩

theorem witness_BuildIsNaiveMerge : loaded3.Inv ∧ loaded3.phase = .loading ∧ 1 ≤ loaded3.nleaf.toNat :=
  witness_BuildMakesStrictTree.1

theorem witness_OneLeafTreeHasEmptyCode : loaded1.Inv ∧ loaded1.phase = .loading ∧ loaded1.nleaf = 1 :=
  ⟨loaded1_inv, rfl, rfl⟩

theorem witness_KeysOrderNodes : (0 : NodeIndex) ≠ 2 := by decide

/-- B1's heap after the leaves are inserted. -/
def heap3 : MinHeap := fillHeap loaded3.node 3 State.reset.queue

theorem heap3_ordered : HeapOrdered loaded3.node heap3 := by
  have hn : heap3.size.toNat = 3 := by decide +kernel
  have main : ∀ i, i < 3 → 0 < i → keyLt loaded3.node (slotAt heap3.slots ((i - 1) / 2)) (slotAt heap3.slots i) = true := by
    decide +kernel
  exact fun i h0 hi => main i (hn ▸ hi) h0

theorem witness_HeapInsertKeepsOrder :
    (heap3.size.toNat < 256 ∧ HeapOrdered loaded3.node heap3 ∧ (7 : NodeIndex) ∉ heapContents heap3) ∧
      (State.reset.queue.size.toNat < 256 ∧ HeapOrdered loaded3.node State.reset.queue ∧
        (0 : NodeIndex) ∉ heapContents State.reset.queue) :=
  ⟨⟨by decide +kernel, heap3_ordered, by decide +kernel⟩, by decide, fun i _ hi => absurd hi (Nat.not_lt_zero i), by decide⟩

theorem witness_HeapExtractTakesLeast :
    1 ≤ heap3.size.toNat ∧ heap3.size.toNat ≤ 256 ∧ HeapOrdered loaded3.node heap3 ∧ (heapContents heap3).Nodup :=
  ⟨by decide +kernel, by decide +kernel, heap3_ordered, by decide +kernel⟩

theorem witness_GencodesFollowsRule :
    loaded3.phase ≠ .built ∧ (active1.Inv ∧ active1.phase = .built) ∧ active3.Inv ∧ active3.phase = .built ∧
      ∃ u, exec .gencodes (nextOf (exec .gencodes active3)) = .next u :=
  ⟨by decide +kernel, ⟨active1_inv, rfl⟩, active3_inv, rfl, exists_next (by decide +kernel)⟩

/-- No table, a symbol without a code, a symbol with one. -/
theorem witness_LookupFollowsRule :
    built3.tv = false ∧ flagAt active3.table.valid 0x7A = false ∧ active3.tv = true ∧
      flagAt active3.table.valid 0x61 = true := by decide +kernel

/-- The code of `a` has two digits: digit 2 is the first beyond it. -/
theorem witness_ReadcodeFollowsRule :
    (active3.tv = true ∧ flagAt active3.table.valid 0x61 = true ∧ active3.Inv ∧
      (lenAt active3.table 0x61).toNat ≤ 32 * (0 : BitVec 3).toNat + 2) ∧
      flagAt active3.table.valid 0x7A = false :=
  ⟨⟨rfl, by decide +kernel, active3_inv, by decide +kernel⟩, by decide +kernel⟩

theorem witness_CodesArePrefixFree :
    active3.Inv ∧ flagAt active3.table.valid 0x61 = true ∧ flagAt active3.table.valid 0x62 = true ∧
      (0x61 : Symbol) ≠ 0x62 := ⟨active3_inv, by decide +kernel, by decide +kernel, by decide⟩

theorem witness_CodeLengthBelowLeafCount :
    (active3.Inv ∧ flagAt active3.table.valid 0x63 = true) ∧ (active1.Inv ∧ flagAt active1.table.valid 0x61 = true) :=
  ⟨⟨active3_inv, by decide +kernel⟩, active1_inv, by decide +kernel⟩

theorem witness_MoreFrequentNeverLonger :
    ∃ t u, loaded3.Inv ∧ loaded3.phase = .loading ∧ exec .build loaded3 = .next t ∧ exec .gencodes t = .next u ∧
      1 < loaded3.nleaf.toNat ∧ (nodeAt loaded3.node 0).freq.toNat < (nodeAt loaded3.node 1).freq.toNat := by
  refine ⟨nextOf (exec .build loaded3), nextOf (exec .gencodes (nextOf (exec .build loaded3))), loaded3_inv, rfl,
    nextOf_eq ?_, nextOf_eq ?_, ?_, ?_⟩ <;> decide +kernel

theorem witness_DecstartFollowsRule : loaded3.phase ≠ .built ∧ active3.phase = .built := by decide +kernel

/-- Each clause of DECBIT: no tree, no stream, a leaf root, a character that is no digit, a leaf child and an
internal child. -/
theorem witness_DecbitFollowsRule :
    loaded3.phase ≠ .built ∧ (built3.phase = .built ∧ built3.dstate ≠ .active) ∧
      (active1.phase = .built ∧ active1.dstate = .active ∧ (nodeAt active1.node active1.root.toNat).leaf = true) ∧
      (active3.phase = .built ∧ active3.dstate = .active ∧ (nodeAt active3.node active3.root.toNat).leaf = false) ∧
      ((0x32 : BitVec 8) ≠ 0x30 ∧ (0x32 : BitVec 8) ≠ 0x31) ∧
      ((nodeAt active3.node active3.cursor.toNat).left = 1 ∧ (nodeAt active3.node 1).leaf = true) ∧
      ((nodeAt active3.node active3.cursor.toNat).right = 3 ∧ (nodeAt active3.node 3).leaf = false) := by
  decide +kernel

/-- The further hypotheses of DECRAW's last clause. -/
theorem witness_DecrawFollowsRule :
    isNext (exec (.decraw 1) active3) = true ∧ isNext (exec (.decbit 0x31) active3) = true ∧
      built3.dstate ≠ .active ∧ (nodeAt active1.node active1.root.toNat).leaf = true ∧
      (nodeAt active3.node active3.root.toNat).leaf = false := by decide +kernel

theorem witness_DecrootFollowsRule :
    loaded3.phase ≠ .built ∧ (built3.phase = .built ∧ built3.dstate ≠ .active) ∧
      (active3.phase = .built ∧ active3.dstate = .active ∧ (nodeAt active3.node active3.root.toNat).leaf = false) ∧
      (active1.phase = .built ∧ active1.dstate = .active ∧ (nodeAt active1.node active1.root.toNat).leaf = true) := by
  decide +kernel

theorem witness_DecendFollowsRule :
    loaded3.phase ≠ .built ∧ (built3.phase = .built ∧ built3.dstate ≠ .active) ∧
      (active3.phase = .built ∧ active3.dstate = .active ∧ active3.cursor = active3.root) ∧
      (3 : NodeIndex) ≠ active3.root := by decide +kernel

theorem witness_StreamErrorsAreFatal :
    (isNext (exec (.decbit 0x32) active3) = true ∧ errOf (nextOf (exec (.decbit 0x32) active3)) = 3) ∧
      ∀ s : State, s = { active3 with dstate := .failed } →
        s.phase = .built ∧ s.dstate = .failed ∧ isNext (exec .decstart s) = true ∧
          (Instr.decraw 1).mnemonic ∈ [Mnemonic.decbit, .decraw, .decroot, .decend] := by
  refine ⟨by decide +kernel, fun s hs => ?_⟩
  subst hs
  decide +kernel

theorem witness_DecodingInvertsEncoding :
    (active3.Inv ∧ active3.tv = true ∧ (∀ sym ∈ [(0x61 : Symbol), 0x62, 0x63, 0x61], flagAt active3.table.valid sym = true) ∧
      (nodeAt active3.node active3.root.toNat).leaf = false) ∧
      (active1.Inv ∧ active1.tv = true ∧ (∀ sym ∈ [(0x61 : Symbol), 0x61], flagAt active1.table.valid sym = true) ∧
        (nodeAt active1.node active1.root.toNat).leaf = true) :=
  ⟨⟨active3_inv, rfl, by decide +kernel, by decide +kernel⟩, active1_inv, rfl, by decide +kernel, by decide +kernel⟩

/-- The same state with another stale `PATH` and a response offered. -/
theorem witness_InternalStateUnobservable :
    ∃ t : State, t ≠ active3 ∧ active3.Inv ∧ t.Inv ∧ ArchEq active3 t ∧
      ∃ s', exec (.decbit 0x31) active3 = .next s' := by
  let base : State := { active3 with walk := { active3.walk with path := 5 } }
  have hb : base.Inv :=
    { counts := ⟨active3_inv.counts.leaves_le, active3_inv.counts.loading, active3_inv.counts.built⟩
      leaves := ⟨active3_inv.leaves.shape, active3_inv.leaves.distinct, active3_inv.leaves.seen, active3_inv.leaves.total⟩
      tree := fun h => ⟨(active3_inv.tree h).internal, (active3_inv.tree h).owned, (active3_inv.tree h).rootFree,
        (active3_inv.tree h).rootTotal⟩
      table := ⟨active3_inv.table.empty, active3_inv.table.built, active3_inv.table.valid, active3_inv.table.codes⟩
      decoder := ⟨active3_inv.decoder.loading, active3_inv.decoder.active⟩
      rest := ⟨rfl, rfl, by decide⟩ }
  refine ⟨held base [], fun h => ?_, active3_inv, inv_withChan hb _ (by decide),
    ⟨rfl, rfl, rfl, rfl, rfl, rfl, fun _ _ => rfl, rfl, rfl, fun _ _ => ⟨rfl, rfl⟩, rfl, rfl⟩,
    exists_next (by decide +kernel)⟩
  have hc : (held base []).chan.rspv = active3.chan.rspv := by rw [h]
  cases hc

/-- The reset state, and the state after CLEAR, whose arena still holds the old tree. -/
theorem witness_EmptySessionAfterReset : ArchEq State.reset State.reset ∧ ArchEq active3.cleared State.reset := by
  refine ⟨⟨rfl, rfl, rfl, rfl, rfl, rfl, fun _ _ => rfl, rfl, rfl, fun _ _ => ⟨rfl, rfl⟩, rfl, rfl⟩,
    ⟨rfl, rfl, rfl, rfl, rfl, rfl, fun i hi => absurd hi (Nat.not_lt_zero i), rfl, rfl, fun sym h => ?_, rfl, rfl⟩⟩
  rw [show active3.cleared.table.valid = Vector.replicate 256 false from rfl, flagAt_replicate] at h
  cases h

end Sys2Proof.Tests
end

section
/-!
PROOFS. The keys of nodes as a linear order (00_scope R9).
-/

namespace Sys2Proof.Machine

/-- `key(i) = (FREQ[i], i)`, in the lexicographic order of pairs (00_scope R9). -/
def nodeKey (a : Arena) (i : NodeIndex) : ℕ ×ₗ ℕ := toLex ((nodeAt a i.toNat).freq.toNat, i.toNat)

/-- The index is part of the key, so different nodes have different keys. -/
theorem nodeKey_injective (a : Arena) : Function.Injective (nodeKey a) := fun _ _ h =>
  BitVec.eq_of_toNat_eq (congrArg Prod.snd (toLex.injective h))

theorem keyLt_iff (a : Arena) (i j : NodeIndex) :
    keyLt a i j = true ↔
      (nodeAt a i.toNat).freq.toNat < (nodeAt a j.toNat).freq.toNat ∨
        (nodeAt a i.toNat).freq.toNat = (nodeAt a j.toNat).freq.toNat ∧ i.toNat < j.toNat := by
  simp only [keyLt, Bool.or_eq_true, Bool.and_eq_true, decide_eq_true_eq]

theorem keyLt_iff_nodeKey_lt (a : Arena) (i j : NodeIndex) : keyLt a i j = true ↔ nodeKey a i < nodeKey a j := by
  rw [keyLt_iff, nodeKey, nodeKey, Prod.Lex.toLex_lt_toLex]

theorem keyLt_eq_false_iff_nodeKey_le (a : Arena) (i j : NodeIndex) :
    keyLt a i j = false ↔ nodeKey a j ≤ nodeKey a i := by
  rw [← Bool.not_eq_true, keyLt_iff_nodeKey_lt, not_lt]

theorem keyLt_iff_swap_eq_false {i j : NodeIndex} (a : Arena) (hne : i ≠ j) :
    keyLt a i j = true ↔ keyLt a j i = false := by
  have hkey : nodeKey a i ≠ nodeKey a j := (nodeKey_injective a).ne hne
  rw [keyLt_iff_nodeKey_lt, keyLt_eq_false_iff_nodeKey_le]
  exact hkey.le_iff_lt.symm

/-- Settles O43: `keyLt` is the strict order of `nodeKey`, a linear order, and `nodeKey` is injective. -/
theorem keysOrderNodes : Obligations.KeysOrderNodes := fun a i j =>
  ⟨keyLt_iff a i j, keyLt_iff_swap_eq_false a⟩

end Sys2Proof.Machine
end

section
/-!
PROOFS. How `DSTATE` moves (10_state R33): by the code a command answers, by `rst`, and by nothing else.
-/

namespace Sys2Proof.Machine

@[simp] theorem errOf_reply (s : State) (opc : BitVec 8) (e : ErrorCode) (d : Word) :
    errOf (s.reply opc e d) = errorNumber e := responseWord_code opc e

theorem errorNumber_eq_three (e : ErrorCode) : errorNumber e = 3 ↔ e = .invalidBit := by
  cases e <;> decide

theorem errorNumber_eq_four (e : ErrorCode) : errorNumber e = 4 ↔ e = .truncatedStream := by
  cases e <;> decide

/-- CLEAR is legal in every state (43_system R181), so it has no error to raise. -/
theorem Quiet.ne_clear {i : Instr} {e : ErrorCode} (h : Quiet i.mnemonic e) : i ≠ .clear := by
  rintro rfl
  obtain ⟨_, _, _, hmem⟩ := h
  exact absurd hmem List.not_mem_nil

/-- The three commands whose success sets `DSTATE`; the success of any other keeps it. -/
theorem Success.dstate_eq {s u : State} {i : Instr} {d : Word} (h : Success s i u d) :
    u.dstate =
      if i = .decstart then .active else if i = .decend then .idle else if i = .clear then .idle else s.dstate := by
  cases h with
  | digitLeaf _ _ _ _ _ hi | digitInternal _ _ _ _ _ hi =>
    obtain ⟨_, rfl, _⟩ | ⟨_, rfl, _⟩ := hi <;> simp
  | _ => simp

/-- The transition list of 10_state R33, read off how the command ended. -/
theorem Ended.dstate_eq {s t : State} {i : Instr} (h : Ended s i t) :
    t.dstate =
      if errOf t = 3 ∨ errOf t = 4 then .failed
      else if i = .decstart ∧ errOf t = 0 then .active
      else if i = .decend ∧ errOf t = 0 then .idle
      else if i = .clear then .idle
      else s.dstate := by
  cases h with
  | quiet e hq =>
    have hclear : i ≠ .clear := hq.ne_clear
    obtain ⟨hok, hbit, htrunc, _⟩ := hq
    simp only [State.reply_dstate, errOf_reply, errorNumber_eq_three, errorNumber_eq_four, errorNumber_eq_zero, hok,
      hbit, htrunc, hclear, or_self, and_false, if_false]
  | invalidBit | truncated => simp [errorNumber]
  | success u d hs => simpa [errorNumber] using hs.dstate_eq

theorem step_dstate_of_rst {s t : State} (hrst : s.pins.rst = true) (h : step s = .next t) : t.dstate = .idle := by
  have hstep : step s = .next s.popPins.hardReset := by simp [step, edgeAction, hrst]
  cases hstep.symm.trans h
  rfl

/-- The other edges, and the answer to words that are no command, leave `DSTATE` as it was. -/
theorem rst_or_exec_of_step_dstate_ne {s t : State} (h : step s = .next t) (hne : t.dstate ≠ s.dstate) :
    s.pins.rst = true ∨
      ∃ i, s.chan.busy = true ∧ s.chan.wait = 0 ∧ s.fetched = .ok i ∧ exec i s.popPins = .next t := by
  obtain ⟨hrst, -⟩ | ⟨-, hbusy, hwait, hs⟩ | ⟨-, -, -, hs⟩ | ⟨-, -, -, -, hs⟩ | ⟨-, -, -, -, hs⟩ |
    ⟨-, -, -, -, hs⟩ | ⟨-, -, -, -, hs⟩ := step_cases s
  case inl => exact .inl hrst
  case inr.inl =>
    obtain ⟨i, hi, hrun⟩ | ⟨e, -, hrun⟩ := runCommand_cases s.popPins
    · exact .inr ⟨i, hbusy, hwait, hi, hrun.symm.trans (hs.symm.trans h)⟩
    · cases (hs.trans hrun).symm.trans h
      exact absurd rfl hne
  all_goals
    cases hs.symm.trans h
    exact absurd rfl hne

theorem dstateBits_ne_three (d : DecoderState) : dstateBits d ≠ 3 := by
  cases d <;> decide

theorem State.Inv.built_of_dstate_ne_idle {s : State} (h : s.Inv) (hne : s.dstate ≠ .idle) : s.phase = .built := by
  cases hp : s.phase with
  | loading => exact absurd (h.decoder.loading hp).1 hne
  | built => rfl

/-- Settles O30: the commands by how each can end, the edges by what each does. -/
theorem decoderStateTransitions : Obligations.DecoderStateTransitions :=
  ⟨fun _ _ _ h => (exec_cases h).dstate_eq, fun _ _ => step_dstate_of_rst, fun _ _ => rst_or_exec_of_step_dstate_ne,
    dstateBits_ne_three, fun _ => State.Inv.built_of_dstate_ne_idle⟩

end Sys2Proof.Machine
end

section
/-!
PROOFS. The sifting of the binary heap (40_builder R103, R104) mends heap order where one slot is out of place, so
`HeapInsert` and `HeapExtract` keep it.
-/

namespace Sys2Proof.Machine

/-- The key of the node in slot `i`. -/
def slotKey (a : Arena) (v : Vector NodeIndex 256) (i : Nat) : ℕ ×ₗ ℕ := nodeKey a (slotAt v i)

theorem keyLt_slotAt (a : Arena) (v : Vector NodeIndex 256) (i j : Nat) :
    keyLt a (slotAt v i) (slotAt v j) = true ↔ slotKey a v i < slotKey a v j :=
  keyLt_iff_nodeKey_lt a _ _

theorem slotKey_setSlot (a : Arena) (v : Vector NodeIndex 256) (x : NodeIndex) {i : Nat} (hi : i < 256) (j : Nat) :
    slotKey a (setSlot v i x) j = if i = j then nodeKey a x else slotKey a v j := by
  rw [slotKey, slotAt_setSlot v i j x hi, apply_ite (nodeKey a), slotKey]

theorem slotKey_swapSlots (a : Arena) (v : Vector NodeIndex 256) {i j : Nat} (hi : i < 256) (hj : j < 256) (k : Nat) :
    slotKey a (swapSlots v i j) k =
      if k = j then slotKey a v i else if k = i then slotKey a v j else slotKey a v k := by
  rw [slotKey, slotAt_swapSlots v i j k hi hj, apply_ite (nodeKey a), apply_ite (nodeKey a), slotKey, slotKey, slotKey]

/-! Sifting up (40_builder R103) -/

/-- Heap order but for the node in slot `i`, which no other slot's equals and which may belong higher up: the invariant
of `siftUp`. -/
structure OrderedButUp (a : Arena) (v : Vector NodeIndex 256) (n i : Nat) : Prop where
  edge : ∀ j, 0 < j → j < n → j ≠ i → slotKey a v ((j - 1) / 2) < slotKey a v j
  across : 0 < i → ∀ j, j < n → (j - 1) / 2 = i → slotKey a v ((i - 1) / 2) < slotKey a v j
  fresh : ∀ j, j < n → j ≠ i → slotKey a v j ≠ slotKey a v i

/-- A node less than its parent changes places with it, and is the one out of place there. -/
theorem OrderedButUp.swap {a : Arena} {v : Vector NodeIndex 256} {n i : Nat} (h : OrderedButUp a v n i)
    (hn : n ≤ 256) (hi : i < n) (h0 : 0 < i) (hlt : slotKey a v i < slotKey a v ((i - 1) / 2)) :
    OrderedButUp a (swapSlots v i ((i - 1) / 2)) n ((i - 1) / 2) := by
  have key := slotKey_swapSlots a v (i := i) (j := (i - 1) / 2) (by omega) (by omega)
  constructor
  · intro j hj0 hj hne
    rw [key, key, if_neg hne]
    by_cases hji : j = i
    · rw [if_pos (by rw [hji]), if_pos hji]
      exact hlt
    rw [if_neg hji]
    split_ifs with hp hp
    · exact hlt.trans (hp ▸ h.edge j hj0 hj hji)
    · exact h.across h0 j hj hp
    · exact h.edge j hj0 hj hji
  · intro hp0 j hj hp
    have up := h.edge ((i - 1) / 2) hp0 (by omega) (by omega)
    rw [key, key, if_neg (show ((i - 1) / 2 - 1) / 2 ≠ (i - 1) / 2 by omega),
      if_neg (show ((i - 1) / 2 - 1) / 2 ≠ i by omega), if_neg (show j ≠ (i - 1) / 2 by omega)]
    split_ifs with hji
    · exact up
    · exact up.trans (hp ▸ h.edge j (by omega) hj hji)
  · intro j hj hne
    rw [key, key, if_neg hne, if_pos rfl]
    split_ifs with hji
    · exact hlt.ne'
    · exact h.fresh j hj hji

/-- The loop of `HeapInsert` ends in heap order (40_builder R103). -/
theorem siftUp_ordered (a : Arena) {n : Nat} (hn : n ≤ 256) (fuel i : Nat) (v : Vector NodeIndex 256)
    (hfuel : i ≤ fuel) (hi : i < n) (h : OrderedButUp a v n i) (j : Nat) (hj0 : 0 < j) (hj : j < n) :
    slotKey a (siftUp a fuel i v) ((j - 1) / 2) < slotKey a (siftUp a fuel i v) j := by
  induction fuel generalizing i v with
  | zero => exact h.edge j hj0 hj (by omega)
  | succ fuel ih =>
    unfold siftUp
    split_ifs with h0 hlt
    · exact h.edge j hj0 hj (by omega)
    · exact ih _ _ (by omega) (by omega) (h.swap hn hi (by omega) ((keyLt_slotAt a v _ _).1 hlt))
    · rw [keyLt_slotAt, not_lt] at hlt
      by_cases hji : j = i
      · exact hji ▸ lt_of_le_of_ne hlt (h.fresh _ (by omega) (by omega))
      · exact h.edge j hj0 hj hji

/-- `HeapInsert` of a node the heap does not hold keeps heap order (40_builder R103). -/
theorem heapInsert_ordered {a : Arena} {x : NodeIndex} {h : MinHeap} (hsize : h.size.toNat < 256)
    (hord : HeapOrdered a h) (hx : x ∉ heapContents h) : HeapOrdered a (heapInsert a x h) := by
  have key := slotKey_setSlot a h.slots x hsize
  intro j hj0 hj
  rw [heapInsert_size a x h hsize] at hj
  rw [keyLt_slotAt]
  refine siftUp_ordered a (n := h.size.toNat + 1) (by omega) _ _ _ le_rfl (by omega) ?_ j hj0 hj
  constructor
  · intro i hi0 hi hne
    rw [key, key, if_neg (by omega), if_neg hne.symm, ← keyLt_slotAt]
    exact hord i hi0 (by omega)
  · intro _ i hi hp
    omega
  · intro i hi hne
    rw [key, key, if_neg hne.symm, if_pos rfl]
    refine (nodeKey_injective a).ne fun e => hx (e ▸ ?_)
    exact List.mem_map_of_mem (List.mem_range.2 (by omega))

/-! Sifting down (40_builder R104) -/

/-- Heap order of the first `n` slots by `≤`: what `siftDown` mends, whether or not a node stands there twice. -/
def WeaklyOrdered (a : Arena) (v : Vector NodeIndex 256) (n : Nat) : Prop :=
  ∀ j, 0 < j → j < n → slotKey a v ((j - 1) / 2) ≤ slotKey a v j

/-- Heap order by `≤` but for the node in slot `i`, which may belong lower down: the invariant of `siftDown`. -/
structure OrderedButDown (a : Arena) (v : Vector NodeIndex 256) (n i : Nat) : Prop where
  edge : ∀ j, 0 < j → j < n → (j - 1) / 2 ≠ i → slotKey a v ((j - 1) / 2) ≤ slotKey a v j
  across : 0 < i → ∀ j, j < n → (j - 1) / 2 = i → slotKey a v ((i - 1) / 2) ≤ slotKey a v j

/-- One comparison of `HeapExtract`'s loop: of slot `m` and a child `c` below `n`, the one of lesser key. -/
theorem slotKey_lesser_le (a : Arena) (n c m : Nat) (v : Vector NodeIndex 256) :
    slotKey a v (if c < n ∧ keyLt a (slotAt v c) (slotAt v m) then c else m) ≤ slotKey a v m ∧
      (c < n → slotKey a v (if c < n ∧ keyLt a (slotAt v c) (slotAt v m) then c else m) ≤ slotKey a v c) := by
  simp only [keyLt_slotAt]
  split_ifs with h
  · exact ⟨h.2.le, fun _ => le_rfl⟩
  · exact ⟨le_rfl, fun hc => not_lt.1 fun hlt => h ⟨hc, hlt⟩⟩

/-- The slot chosen by one round of `HeapExtract`'s loop has the least key of `i` and its children (40_builder R104). -/
theorem slotKey_leastSlot_le (a : Arena) (n i : Nat) (v : Vector NodeIndex 256) :
    slotKey a v (leastSlot a n i v) ≤ slotKey a v i ∧
      ∀ j, 0 < j → j < n → (j - 1) / 2 = i → slotKey a v (leastSlot a n i v) ≤ slotKey a v j := by
  obtain ⟨hself, hleft⟩ := slotKey_lesser_le a n (2 * i + 1) i v
  obtain ⟨hfirst, hright⟩ := slotKey_lesser_le a n (2 * i + 2)
    (if 2 * i + 1 < n ∧ keyLt a (slotAt v (2 * i + 1)) (slotAt v i) then 2 * i + 1 else i) v
  refine ⟨hfirst.trans hself, fun j hj0 hj hp => ?_⟩
  obtain rfl | rfl : j = 2 * i + 1 ∨ j = 2 * i + 2 := by omega
  · exact hfirst.trans (hleft hj)
  · exact hright hj

/-- A node no less than its least child changes places with it, and is the one out of place there. -/
theorem OrderedButDown.swap {a : Arena} {v : Vector NodeIndex 256} {n i m : Nat} (h : OrderedButDown a v n i)
    (hn : n ≤ 256) (hm0 : 0 < m) (hm : m < n) (hchild : (m - 1) / 2 = i) (hle : slotKey a v m ≤ slotKey a v i)
    (hleast : ∀ j, 0 < j → j < n → (j - 1) / 2 = i → slotKey a v m ≤ slotKey a v j) :
    OrderedButDown a (swapSlots v i m) n m := by
  have key := slotKey_swapSlots a v (i := i) (j := m) (by omega) (by omega)
  constructor
  · intro j hj0 hj hne
    rw [key, key, if_neg hne]
    split_ifs with hp hjm hji hjm hji
    · exact hle
    · omega
    · exact hleast j hj0 hj hp
    · exact absurd (hjm ▸ hchild) hp
    · exact hji ▸ h.across (by omega) m hm hchild
    · exact h.edge j hj0 hj hp
  · intro _ j hj hp
    rw [key, key, hchild, if_neg (show i ≠ m by omega), if_pos rfl, if_neg (show j ≠ m by omega),
      if_neg (show j ≠ i by omega)]
    exact hp ▸ h.edge j (by omega) hj (by omega)

/-- The loop of `HeapExtract` ends in heap order (40_builder R104). -/
theorem siftDown_ordered (a : Arena) {n : Nat} (hn : n ≤ 256) (fuel i : Nat) (v : Vector NodeIndex 256)
    (hfuel : n ≤ fuel + i) (h : OrderedButDown a v n i) : WeaklyOrdered a (siftDown a n fuel i v) n := by
  induction fuel generalizing i v with
  | zero => exact fun j hj0 hj => h.edge j hj0 hj (by omega)
  | succ fuel ih =>
    obtain ⟨hle, hleast⟩ := slotKey_leastSlot_le a n i v
    unfold siftDown
    split_ifs with hm
    · intro j hj0 hj
      by_cases hp : (j - 1) / 2 = i
      · rw [hm] at hleast
        exact hp ▸ hleast j hj0 hj hp
      · exact h.edge j hj0 hj hp
    · have hcases := leastSlot_cases a n i v
      exact ih _ _ (by omega) (h.swap hn (by omega) (by omega) (by omega) hle hleast)

theorem HeapOrdered.weakly {a : Arena} {h : MinHeap} (hord : HeapOrdered a h) :
    WeaklyOrdered a h.slots h.size.toNat :=
  fun j hj0 hj => ((keyLt_slotAt a _ _ _).1 (hord j hj0 hj)).le

/-- Where no node stands in the heap twice, heap order by `≤` is heap order, since keys of different nodes differ
(00_scope R9). -/
theorem WeaklyOrdered.heapOrdered {a : Arena} {h : MinHeap} (hord : WeaklyOrdered a h.slots h.size.toNat)
    (hnodup : (heapContents h).Nodup) : HeapOrdered a h := by
  intro j hj0 hj
  have hne : slotAt h.slots ((j - 1) / 2) ≠ slotAt h.slots j := fun e => by
    have := List.inj_on_of_nodup_map hnodup (List.mem_range.2 (show (j - 1) / 2 < _ by omega)) (List.mem_range.2 hj) e
    omega
  rw [keyLt_slotAt]
  exact lt_of_le_of_ne (hord j hj0 hj) ((nodeKey_injective a).ne hne)

/-- In heap order no key is less than the root's. -/
theorem WeaklyOrdered.root_le {a : Arena} {v : Vector NodeIndex 256} {n : Nat} (h : WeaklyOrdered a v n) (j : Nat)
    (hj : j < n) : slotKey a v 0 ≤ slotKey a v j := by
  induction j using Nat.strong_induction_on with
  | _ j ih =>
    obtain rfl | hj0 := Nat.eq_zero_or_pos j
    · exact le_rfl
    · exact (ih ((j - 1) / 2) (by omega) (by omega)).trans (h j hj0 hj)

/-- The slots `HeapExtract` leaves: the last node moved to the root and sifted down (40_builder R104). -/
theorem heapExtract_slots (a : Arena) {h : MinHeap} {n : Nat} (hn : h.size.toNat = n + 1) (hpos : 0 < n) :
    (heapExtract a h).2.slots = siftDown a n n 0 (setSlot h.slots 0 (slotAt h.slots n)) := by
  have hsize : (h.size - 1).toNat = n := (heapExtract_size a h (by omega)).trans (by omega)
  simp only [heapExtract, hsize, if_pos hpos]

section
variable {a : Arena} {h : MinHeap} (h1 : 1 ≤ h.size.toNat) (h2 : h.size.toNat ≤ 256) (hord : HeapOrdered a h)
  (hnodup : (heapContents h).Nodup)
include h1 h2 hord hnodup

/-- `HeapExtract` keeps heap order (40_builder R104). -/
theorem heapExtract_ordered : HeapOrdered a (heapExtract a h).2 := by
  have hsize := heapExtract_size a h h1
  obtain ⟨-, hnodup'⟩ := List.nodup_cons.1 ((heapExtract_perm a h h1 h2).nodup_iff.1 hnodup)
  refine WeaklyOrdered.heapOrdered (fun j hj0 hj => ?_) hnodup'
  obtain ⟨n, hn⟩ : ∃ n, h.size.toNat = n + 1 := ⟨h.size.toNat - 1, by omega⟩
  rw [heapExtract_slots a hn (by omega)]
  refine siftDown_ordered a (by omega) n 0 _ le_rfl ⟨fun i hi0 hi hp => ?_, fun h0 => ?_⟩ j hj0 (by omega)
  · have key := slotKey_setSlot a h.slots (slotAt h.slots n) (show 0 < 256 by omega)
    rw [key, key, if_neg hp.symm, if_neg hi0.ne]
    exact hord.weakly i hi0 (by omega)
  · exact absurd h0 (lt_irrefl 0)

/-- The node `HeapExtract` returns has a lesser key than every node left in the heap (40_builder R105). -/
theorem heapExtract_keyLt {y : NodeIndex} (hy : y ∈ heapContents (heapExtract a h).2) :
    keyLt a (heapExtract a h).1 y = true := by
  have hperm := heapExtract_perm a h h1 h2
  obtain ⟨hout, -⟩ := List.nodup_cons.1 (hperm.nodup_iff.1 hnodup)
  have hne : (heapExtract a h).1 ≠ y := fun e => hout (e ▸ hy)
  obtain ⟨j, hj, rfl⟩ := List.mem_map.1 (hperm.mem_iff.2 (List.mem_cons_of_mem _ hy))
  rw [keyLt_iff_nodeKey_lt]
  exact lt_of_le_of_ne (hord.weakly.root_le j (List.mem_range.1 hj)) ((nodeKey_injective a).ne hne)

end

end Sys2Proof.Machine
end

section
/-!
PROOFS. The heap of BUILD holds the working set of 40_builder R113 all through the merging, so each round of both takes
the same two nodes and makes the same record.
-/

namespace Sys2Proof.Machine

/-! The least member of a working set (40_builder R113) -/

@[simp] theorem leastOf_nil (a : Arena) (m : NodeIndex) : leastOf a m [] = m := rfl

theorem leastOf_concat (a : Arena) (m x : NodeIndex) (w : List NodeIndex) :
    leastOf a m (w ++ [x]) = if keyLt a x (leastOf a m w) then x else leastOf a m w := by
  rw [leastOf, List.foldl_append]
  rfl

theorem leastOf_mem (a : Arena) (m : NodeIndex) (w : List NodeIndex) : leastOf a m w ∈ m :: w := by
  induction w using List.reverseRecOn with
  | nil => exact List.mem_singleton_self m
  | append_singleton w x ih =>
    rw [leastOf_concat, ← List.cons_append]
    split_ifs
    · exact List.mem_append_right _ (List.mem_singleton_self x)
    · exact List.mem_append_left _ ih

theorem nodeKey_leastOf_le (a : Arena) (m : NodeIndex) (w : List NodeIndex) :
    ∀ y ∈ m :: w, nodeKey a (leastOf a m w) ≤ nodeKey a y := by
  induction w using List.reverseRecOn with
  | nil => exact fun y hy => (List.mem_singleton.1 hy) ▸ le_rfl
  | append_singleton w x ih =>
    intro y hy
    rw [leastOf_concat]
    rw [← List.cons_append, List.mem_append, List.mem_singleton] at hy
    split_ifs with hlt <;> rw [keyLt_iff_nodeKey_lt] at hlt
    · obtain hy | rfl := hy
      · exact hlt.le.trans (ih y hy)
      · exact le_rfl
    · obtain hy | rfl := hy
      · exact ih y hy
      · exact not_lt.1 hlt

/-- A member with a lesser key than every other is the least. -/
theorem leastOf_eq {a : Arena} {m r : NodeIndex} {w rest : List NodeIndex} (hperm : (m :: w).Perm (r :: rest))
    (hleast : ∀ y ∈ rest, keyLt a r y = true) : leastOf a m w = r := by
  obtain h | h := List.mem_cons.1 (hperm.mem_iff.1 (leastOf_mem a m w))
  · exact h
  · have hle := nodeKey_leastOf_le a m w r (hperm.mem_iff.2 List.mem_cons_self)
    exact absurd hle (not_le.2 ((keyLt_iff_nodeKey_lt a _ _).1 (hleast _ h)))

/-! Heaps and working sets -/

/-- The key reads the arena at the two nodes alone. -/
theorem keyLt_congr {a b : Arena} {i j : NodeIndex} (hi : nodeAt a i.toNat = nodeAt b i.toNat)
    (hj : nodeAt a j.toNat = nodeAt b j.toNat) : keyLt a i j = keyLt b i j := by
  simp only [keyLt, hi, hj]

/-- The heap holds exactly the working set, once each, in heap order. -/
structure HeapHolds (a : Arena) (h : MinHeap) (w : List NodeIndex) : Prop where
  ordered : HeapOrdered a h
  perm : (heapContents h).Perm w
  nodup : w.Nodup

namespace HeapHolds

variable {a b : Arena} {h : MinHeap} {w : List NodeIndex}

theorem size_eq (hw : HeapHolds a h w) : h.size.toNat = w.length := by
  simpa [heapContents] using hw.perm.length_eq

/-- Nodes outside the heap may be written. -/
theorem congr (hw : HeapHolds a h w) (hab : ∀ i ∈ w, nodeAt a i.toNat = nodeAt b i.toNat) : HeapHolds b h w := by
  refine ⟨fun j hj0 hj => ?_, hw.perm, hw.nodup⟩
  have slot (i : Nat) (hi : i < h.size.toNat) :
      nodeAt a (slotAt h.slots i).toNat = nodeAt b (slotAt h.slots i).toNat :=
    hab _ (hw.perm.mem_iff.1 (List.mem_map_of_mem (List.mem_range.2 hi)))
  rw [← keyLt_congr (slot _ (by omega)) (slot j hj)]
  exact hw.ordered j hj0 hj

/-- `HeapInsert` is the adding of a member (40_builder R103). -/
theorem insert (hw : HeapHolds a h w) {x : NodeIndex} (hlen : w.length < 256) (hx : x ∉ w) :
    HeapHolds a (heapInsert a x h) (w ++ [x]) := by
  have hsize : h.size.toNat < 256 := hw.size_eq ▸ hlen
  refine ⟨heapInsert_ordered hsize hw.ordered (hx ∘ hw.perm.mem_iff.1), ?_, ?_⟩
  · exact (heapInsert_perm a x h hsize).trans ((hw.perm.cons x).trans (List.perm_append_singleton x w).symm)
  · exact List.concat_eq_append ▸ hw.nodup.concat hx

/-- `HeapExtract` is the taking out of the least member (40_builder R104, R105). -/
theorem extract {m : NodeIndex} (hw : HeapHolds a h (m :: w)) (hlen : w.length < 256) :
    (heapExtract a h).1 = leastOf a m w ∧ HeapHolds a (heapExtract a h).2 ((m :: w).erase (leastOf a m w)) := by
  have hsize : h.size.toNat = w.length + 1 := hw.size_eq
  have hnodup := hw.perm.nodup_iff.2 hw.nodup
  have hperm := heapExtract_perm a h (by omega) (by omega)
  have hfirst : (heapExtract a h).1 = leastOf a m w :=
    (leastOf_eq (hw.perm.symm.trans hperm) fun y =>
      heapExtract_keyLt (by omega) (by omega) hw.ordered hnodup).symm
  refine ⟨hfirst, heapExtract_ordered (by omega) (by omega) hw.ordered hnodup, ?_, hw.nodup.erase _⟩
  have := (hperm.symm.trans hw.perm).erase (heapExtract a h).1
  rwa [List.erase_cons_head, hfirst] at this

end HeapHolds

/-- The heap filled with the leaves holds the first working set, `{0, ..., NLEAF-1}` (40_builder R110, R113). -/
theorem holds_fillHeap (a : Arena) (h : MinHeap) (n : Nat) (hn : n ≤ 256) :
    HeapHolds a (fillHeap a n h) ((List.range n).map (BitVec.ofNat 9)) := by
  induction n with
  | zero => exact ⟨fun j _ hj => absurd hj (Nat.not_lt_zero j), List.Perm.refl _, List.nodup_nil⟩
  | succ n ih =>
    have hfill : fillHeap a (n + 1) h = heapInsert a (BitVec.ofNat 9 n) (fillHeap a n h) := by
      simp [fillHeap, List.range_succ]
    rw [hfill, List.range_succ, List.map_append]
    refine (ih (by omega)).insert (by simpa using hn) fun hmem => ?_
    obtain ⟨i, hi, he⟩ := List.mem_map.1 hmem
    have := congrArg BitVec.toNat he
    have := List.mem_range.1 hi
    simp only [BitVec.toNat_ofNat] at *
    omega

/-! The merge loop -/

/-- BUILD over `n` leaves is at the working set `w`: the heap holds it, its members are nodes already made, and each
round makes one node and leaves one member less (40_builder R106, R112). -/
structure Builder.AtSet (n : Nat) (b : Builder) (w : List NodeIndex) : Prop where
  holds : HeapHolds b.arena b.queue w
  made : ∀ i ∈ w, i.toNat < b.next
  count : b.next + w.length = 2 * n
  leaves_le : n ≤ b.next
  capacity : n ≤ 256

/-- One round of the working set's merging (40_builder R113). -/
theorem naiveMerge_round (fuel : Nat) (a : Arena) (k : Nat) {x y z : NodeIndex} {rest zs : List NodeIndex}
    (hothers : (x :: y :: rest).erase (leastOf a x (y :: rest)) = z :: zs) :
    naiveMerge (fuel + 1) a (x :: y :: rest) k =
      naiveMerge fuel (setNode a k (internalNode a (leastOf a x (y :: rest)) (leastOf a z zs)))
        ((z :: zs).erase (leastOf a z zs) ++ [BitVec.ofNat 9 k]) (k + 1) := by
  simp only [naiveMerge, hothers]

/-- A round takes two members out of the working set. -/
theorem length_round {a : Arena} {x y z : NodeIndex} {rest zs : List NodeIndex}
    (hothers : (x :: y :: rest).erase (leastOf a x (y :: rest)) = z :: zs) :
    zs.length = rest.length ∧ ((z :: zs).erase (leastOf a z zs)).length = rest.length := by
  have hfirst := List.length_erase_of_mem (leastOf_mem a x (y :: rest))
  have hsecond := List.length_erase_of_mem (leastOf_mem a z zs)
  rw [hothers] at hfirst
  simp only [List.length_cons] at hfirst hsecond
  omega

/-- One round of the heap's merging is one round of the working set's (40_builder R110, R113). -/
theorem Builder.AtSet.mergeOnce {n : Nat} {b : Builder} {x y z : NodeIndex} {rest zs : List NodeIndex}
    (h : b.AtSet n (x :: y :: rest)) (hothers : (x :: y :: rest).erase (leastOf b.arena x (y :: rest)) = z :: zs) :
    (mergeOnce b).arena =
        setNode b.arena b.next (internalNode b.arena (leastOf b.arena x (y :: rest)) (leastOf b.arena z zs)) ∧
      (mergeOnce b).AtSet n ((z :: zs).erase (leastOf b.arena z zs) ++ [BitVec.ofNat 9 b.next]) := by
  obtain ⟨holds, made, count, leaves_le, capacity⟩ := h
  obtain ⟨hzs, hlen⟩ := length_round hothers
  simp only [List.length_cons] at count
  obtain ⟨hfirst, hfirst'⟩ := holds.extract (by simp only [List.length_cons]; omega)
  rw [hothers] at hfirst'
  obtain ⟨hsecond, hsecond'⟩ := hfirst'.extract (by omega)
  have harena : (Machine.mergeOnce b).arena =
      setNode b.arena b.next (internalNode b.arena (leastOf b.arena x (y :: rest)) (leastOf b.arena z zs)) := by
    rw [← hfirst, ← hsecond]
    rfl
  have hmade : ∀ i ∈ (z :: zs).erase (leastOf b.arena z zs), i.toNat < b.next := fun i hi =>
    made i (List.mem_of_mem_erase (hothers ▸ List.mem_of_mem_erase hi))
  have hnew : (BitVec.ofNat 9 b.next).toNat = b.next := Nat.mod_eq_of_lt (show b.next < 512 by omega)
  refine ⟨harena, ?_, ?_, ?_, leaves_le.trans (Nat.le_succ _), capacity⟩
  · refine (hsecond'.congr fun i hi => ?_).insert (by omega) fun hmem => ?_
    · rw [harena, nodeAt_setNode_of_ne _ _ _ _ (hmade i hi).ne']
    · exact absurd (hmade _ hmem) (by omega)
  · intro i hi
    show i.toNat < b.next + 1
    obtain hi | hi := List.mem_append.1 hi
    · exact (hmade i hi).trans (Nat.lt_succ_self _)
    · rw [List.mem_singleton.1 hi, hnew]
      exact Nat.lt_succ_self _
  · rw [List.length_append, hlen, List.length_singleton]
    show b.next + 1 + (rest.length + 1) = 2 * n
    omega

/-- The two merge loops make the same arena, with the same node left at the end (40_builder R113). -/
theorem naiveMerge_eq_mergeLoop {n : Nat} (fuel : Nat) (b : Builder) (w : List NodeIndex) (h : b.AtSet n w)
    (hw : w ≠ []) (hfuel : w.length ≤ fuel + 1) :
    ∃ r, naiveMerge fuel b.arena w b.next = ((mergeLoop fuel b).arena, [r], (mergeLoop fuel b).next) ∧
      (mergeLoop fuel b).AtSet n [r] := by
  induction fuel generalizing b w with
  | zero =>
    obtain ⟨r, rfl⟩ := List.length_eq_one_iff.1 (le_antisymm hfuel (List.length_pos_iff.2 hw))
    exact ⟨r, rfl, h⟩
  | succ fuel ih =>
    have hsize := h.holds.size_eq
    match w with
    | [] => exact absurd rfl hw
    | [r] =>
      have hstop : mergeLoop (fuel + 1) b = b := if_neg (by rw [hsize]; simp)
      rw [hstop]
      exact ⟨r, rfl, h⟩
    | x :: y :: rest =>
      have hgo : mergeLoop (fuel + 1) b = mergeLoop fuel (mergeOnce b) := if_pos (by rw [hsize]; simp)
      have hlen := List.length_erase_of_mem (leastOf_mem b.arena x (y :: rest))
      obtain ⟨z, zs, hothers⟩ := List.exists_cons_of_length_eq_add_one (n := rest.length) (by simpa using hlen)
      obtain ⟨harena, hset⟩ := h.mergeOnce hothers
      rw [naiveMerge_round fuel b.arena b.next hothers, hgo, ← harena]
      refine ih (mergeOnce b) _ hset (by simp) ?_
      rw [List.length_append, (length_round hothers).2]
      exact Nat.succ_le_succ_iff.1 hfuel

/-- The two merge alike from the loaded leaves on (40_builder R110, R113). -/
theorem naiveBuild_eq_mergeAll (s : State) (h1 : 1 ≤ s.nleaf.toNat) (h2 : s.nleaf.toNat ≤ 256) :
    ∃ r, naiveBuild s = ((mergeAll s).arena, [r], (mergeAll s).next) ∧ (mergeAll s).AtSet s.nleaf.toNat [r] := by
  refine naiveMerge_eq_mergeLoop s.nleaf.toNat ⟨s.node, fillHeap s.node s.nleaf.toNat s.queue, s.nleaf.toNat⟩
    ((List.range s.nleaf.toNat).map (BitVec.ofNat 9)) ?_ (by simp; omega) (by simp)
  refine ⟨holds_fillHeap _ _ _ h2, fun i hi => ?_, by simp; omega, le_rfl, h2⟩
  obtain ⟨j, hj, rfl⟩ := List.mem_map.1 hi
  exact (Nat.mod_le _ _).trans_lt (List.mem_range.1 hj)

/-- BUILD over at least one leaf builds the tree (40_builder R110). -/
theorem exec_build_of_leaves {s : State} (hload : s.phase = .loading) (hleaf : 1 ≤ s.nleaf.toNat) :
    exec .build s = .next (s.buildTree.answered (responseWord 0x03 .ok) (s.buildTree.root.setWidth 32)) := by
  have hne : s.nleaf ≠ 0 := fun h => by simp [h] at hleaf
  rw [exec, execBuild, if_neg (not_not.2 hload), if_neg hne]
  rfl

/-- Settles O41: the heap holds the working set at the start, in every round and at the end, where the node BUILD
extracts as `ROOT` is its one member. -/
theorem buildIsNaiveMerge : Obligations.BuildIsNaiveMerge := by
  intro s hinv hload hleaf
  obtain ⟨r, hmerge, hend⟩ := naiveBuild_eq_mergeAll s hleaf hinv.counts.leaves_le
  obtain ⟨hroot, -⟩ := hend.holds.extract (by simp)
  have hroom : (mergeAll s).next < 512 := by
    have hcount : (mergeAll s).next + 1 = 2 * s.nleaf.toNat := hend.count
    have := hend.capacity
    omega
  refine ⟨_, exec_build_of_leaves hload hleaf, ?_, ?_, fun i _ => ?_⟩ <;> rw [hmerge]
  · exact congrArg (fun root => [root]) hroot.symm
  · exact (Nat.mod_eq_of_lt hroom).symm
  · rfl

end Sys2Proof.Machine
end

section
/-!
PROOFS. LOAD (40_builder R101): the words that are one, its errors in their order, and the leaf it appends.
-/

namespace Sys2Proof.Machine

/-- With its sixteen reserved bits 0, an operand field of format S is its symbol (30_encoding R83). -/
theorem eq_append_of_symFormat {f : BitVec 24} (h : f &&& reservedMask .s = 0) : f = 0#16 ++ f.extractLsb' 0 8 := by
  have hmask : reservedMask .s = BitVec.allOnes 16 ++ 0#8 := by decide
  refine BitVec.eq_of_getLsbD_eq fun i hi => ?_
  have hbit := congrArg (BitVec.getLsbD · i) h
  simp only [hmask, BitVec.getLsbD_and, BitVec.getLsbD_append, BitVec.getLsbD_allOnes, BitVec.getLsbD_zero] at hbit
  rw [BitVec.getLsbD_append, BitVec.getLsbD_extractLsb', Nat.zero_add]
  by_cases h8 : i < 8
  · simp [h8]
  · simpa [h8, show i - 8 < 16 by omega] using hbit

/-- The words of a LOAD (30_encoding R83, R84, R88). -/
theorem decode_eq_load_iff (w arg : Word) (sym : Symbol) (count : Freq) :
    decode w arg = .ok (.load sym count) ↔ w = (0x02#8 ++ (0#16 ++ sym) : BitVec (8 + (16 + 8))) ∧ arg = count := by
  constructor
  · intro h
    obtain ⟨m, hopc, hres, hi⟩ := decode_ok h
    obtain rfl : m = .load := by rw [← mnemonic_withFields m w arg, ← hi]; rfl
    cases hi
    rw [(fields_of_operandField w).1, ← eq_append_of_symFormat hres]
    exact ⟨(opcode_append_operand w).symm.trans (by rw [← hopc]; rfl), rfl⟩
  · rintro ⟨rfl, rfl⟩
    have hsym : symField (Mnemonic.load.opcode ++ (0#16 ++ sym : BitVec 24)) = sym := by
      rw [(fields_of_operandField _).1, operandField_append]
      exact BitVec.extractLsb'_append_eq_right
    have hres : (0#16 ++ sym : BitVec 24) &&& reservedMask Mnemonic.load.format = 0 :=
      Laws.EncodingFields.sym_fits sym
    refine (decode_opcode_append .load (0#16 ++ sym) arg).trans ?_
    rw [if_pos hres, withFields, hsym]

/-- LOAD in one equation: the first error that stands, or the new leaf (40_builder R101). -/
theorem exec_load (sym : Symbol) (count : Freq) (s : State) :
    exec (.load sym count) s =
      .next (
        if s.phase ≠ .loading then s.answered 0x02000006 0
        else if count = 0 then s.answered 0x02000008 0
        else if flagAt s.seen sym then s.answered 0x02000007 0
        else if 0xFFFFFFFF < s.total.toNat + count.toNat then s.answered 0x02000009 0
        else (s.addLeaf sym count).answered 0x02000000 (s.nleaf.setWidth 32)) := by
  rw [exec, execLoad]
  split_ifs <;> rfl

/-- Where a symbol is not yet loaded there are fewer than 256 leaves, since their symbols differ (10_state R23). -/
theorem State.Inv.nleaf_le_of_unseen {s : State} (h : s.Inv) {sym : Symbol} (hsym : flagAt s.seen sym = false) :
    s.nleaf.toNat ≤ 255 := by
  have hunseen : ∀ i, i < s.nleaf.toNat → (nodeAt s.node i).sym ≠ sym := fun i hi e => by
    simp [(h.leaves.seen sym).2 ⟨i, hi, e⟩] at hsym
  have hcard := Finset.card_le_card_of_injOn (s := Finset.range s.nleaf.toNat)
    (t := (Finset.range 256).erase sym.toNat) (fun i => (nodeAt s.node i).sym.toNat)
    (fun i hi => Finset.mem_erase.2 ⟨fun e => hunseen i (Finset.mem_range.1 hi) (BitVec.eq_of_toNat_eq e),
      Finset.mem_range.2 (nodeAt s.node i).sym.isLt⟩)
    (fun i hi j hj e => h.leaves.distinct i (Finset.mem_range.1 hi) j (Finset.mem_range.1 hj) (BitVec.eq_of_toNat_eq e))
  rwa [Finset.card_range, Finset.card_erase_of_mem (Finset.mem_range.2 sym.isLt), Finset.card_range] at hcard

/-- Settles O38: the errors read off LOAD's one equation, the success field by field. -/
theorem loadFollowsRule : Obligations.LoadFollowsRule := by
  intro s sym count
  refine ⟨fun w arg => decode_eq_load_iff w arg sym count, ?_, ?_, ?_, ?_, ?_⟩ <;> rw [exec_load]
  · intro hphase
    rw [if_pos hphase]
  · intro hphase hzero
    rw [if_neg (not_not.2 hphase), if_pos hzero]
  · intro hphase hcount hseen
    rw [if_neg (not_not.2 hphase), if_neg hcount, if_pos hseen]
  · intro hphase hcount hseen hover
    rw [if_neg (not_not.2 hphase), if_neg hcount, if_neg (by simp [hseen]), if_pos hover]
  · intro hinv hphase hcount hseen hfit
    have hleaf : s.nleaf.toNat ≤ 255 := hinv.nleaf_le_of_unseen hseen
    have hnnode : s.nnode = s.nleaf := (hinv.counts.loading hphase).1
    have hsucc : (s.nleaf + 1).toNat = s.nleaf.toNat + 1 :=
      Nat.mod_eq_of_lt (show s.nleaf.toNat + 1 < 512 by omega)
    rw [if_neg (not_not.2 hphase), if_neg hcount, if_neg (by simp [hseen]), if_neg (by omega)]
    refine ⟨hleaf, _, rfl, ?_, nodeAt_setNode_self _ _ _ (by omega),
      fun j hj => nodeAt_setNode_of_ne _ _ _ _ hj.symm, flagAt_setFlag_self _ _,
      fun other hne => flagAt_setFlag_of_ne _ _ _ hne.symm, hsucc, ?_, ?_, rfl, rfl, ⟨rfl, rfl⟩,
      ⟨rfl, rfl⟩, ⟨rfl, rfl⟩⟩
    · exact congrArg (fun d => { s.chan with busy := false, rspv := true, rsp := 0x02000000, data := d })
        (BitVec.ofNat_toNat 32 s.nleaf).symm
    · exact hnnode ▸ hsucc
    · exact Nat.mod_eq_of_lt (show s.total.toNat + count.toNat < 2 ^ 32 by omega)

end Sys2Proof.Machine
end

section
/-!
PROOFS. The arena under a node of the built tree (10_state R29), unfolded into a tree as data, so that a proof about
the tree is an induction on it.
-/

namespace Sys2Proof.Machine

/-- The nodes under a node of the arena, as a tree of indices. -/
inductive SubTree where
  | leaf (n : NodeIndex)
  | fork (n : NodeIndex) (left right : SubTree)

namespace SubTree

/-- The indices of all nodes of the tree, each as often as it stands there. -/
def nodes : SubTree → List Nat
  | leaf n => [n.toNat]
  | fork n left right => n.toNat :: (left.nodes ++ right.nodes)

/-- The number of edges on the longest path down. -/
def height : SubTree → Nat
  | leaf _ => 0
  | fork _ left right => max left.height right.height + 1

/-- The leaves from left to right, each with the digits that lead to it, those of `p` first (00_scope R10). -/
def paths : SubTree → List Bool → List (NodeIndex × List Bool)
  | leaf n, p => [(n, p)]
  | fork _ left right, p => left.paths (p ++ [false]) ++ right.paths (p ++ [true])

end SubTree

/-- The arena under node `n` is the tree: a leaf record, or an internal record over the trees of two lower nodes. -/
inductive Unfolds (a : Arena) : NodeIndex → SubTree → Prop
  | leaf {n : NodeIndex} : (nodeAt a n.toNat).leaf = true → Unfolds a n (.leaf n)
  | fork {n : NodeIndex} {left right : SubTree} : (nodeAt a n.toNat).leaf = false →
      (nodeAt a n.toNat).left.toNat < n.toNat → (nodeAt a n.toNat).right.toNat < n.toNat →
      Unfolds a (nodeAt a n.toNat).left left → Unfolds a (nodeAt a n.toNat).right right →
      Unfolds a n (.fork n left right)

namespace Unfolds

variable {a : Arena} {n : NodeIndex} {t : SubTree}

/-- The top node stands once in the tree, above lower nodes only. -/
theorem nodes_eq_cons (h : Unfolds a n t) : ∃ below, t.nodes = n.toNat :: below ∧ ∀ i ∈ below, i < n.toNat := by
  induction h with
  | leaf _ => exact ⟨[], rfl, fun _ hi => absurd hi List.not_mem_nil⟩
  | @fork n left right _ hleft hright _ _ ihl ihr =>
    obtain ⟨belowl, hl, hltl⟩ := ihl
    obtain ⟨belowr, hr, hltr⟩ := ihr
    refine ⟨left.nodes ++ right.nodes, rfl, fun i hi => ?_⟩
    rw [hl, hr, List.mem_append, List.mem_cons, List.mem_cons] at hi
    obtain (rfl | hi) | (rfl | hi) := hi
    · exact hleft
    · exact (hltl i hi).trans hleft
    · exact hright
    · exact (hltr i hi).trans hright

theorem le_of_mem_nodes (h : Unfolds a n t) {i : Nat} (hi : i ∈ t.nodes) : i ≤ n.toNat := by
  obtain ⟨below, hnodes, hlt⟩ := h.nodes_eq_cons
  rw [hnodes, List.mem_cons] at hi
  exact hi.elim le_of_eq fun hi => (hlt i hi).le

theorem count_top (h : Unfolds a n t) : t.nodes.count n.toNat = 1 := by
  obtain ⟨below, hnodes, hlt⟩ := h.nodes_eq_cons
  rw [hnodes, List.count_cons_self, List.count_eq_zero_of_not_mem fun hmem => lt_irrefl _ (hlt _ hmem)]

/-- A node with one parent stands in the tree as often as its parent, and once more at the top. -/
theorem count_eq_count_parent (h : Unfolds a n t) {i p : Nat} (hp : (nodeAt a p).leaf = false)
    (hdiff : (nodeAt a p).left ≠ (nodeAt a p).right)
    (hparent : ∀ q ≤ n.toNat, (nodeAt a q).leaf = false → (IsChild a q i ↔ q = p)) :
    t.nodes.count i = (if n.toNat = i then 1 else 0) + t.nodes.count p := by
  induction h with
  | @leaf n hleaf =>
    have hne : n.toNat ≠ p := fun e => by simp [e, hp] at hleaf
    simp [SubTree.nodes, List.count_cons, hne]
  | @fork n left right hfork hleft hright _ _ ihl ihr =>
    have hchildren : (if (nodeAt a n.toNat).left.toNat = i then 1 else 0) +
        (if (nodeAt a n.toNat).right.toNat = i then 1 else 0) = if n.toNat = p then 1 else 0 := by
      have hn := hparent n.toNat le_rfl hfork
      unfold IsChild at hn
      by_cases e : n.toNat = p
      · have hne : (nodeAt a n.toNat).left.toNat ≠ (nodeAt a n.toNat).right.toNat :=
          e ▸ fun h => hdiff (BitVec.eq_of_toNat_eq h)
        rw [if_pos e]
        obtain h | h := hn.2 e
        · rw [if_pos h, if_neg (h ▸ hne.symm)]
        · rw [if_pos h, if_neg (h ▸ hne)]
      · obtain ⟨hl, hr⟩ := not_or.1 (mt hn.1 e)
        rw [if_neg hl, if_neg hr, if_neg e]
    simp only [SubTree.nodes, List.count_cons, List.count_append, beq_iff_eq]
    rw [ihl fun q hq => hparent q (hq.trans hleft.le), ihr fun q hq => hparent q (hq.trans hright.le)]
    omega

/-- The digits beside a leaf are `p` and then a path to it, no longer than the tree is high. -/
theorem follow_of_mem_paths (h : Unfolds a n t) {p c : List Bool} {l : NodeIndex} (hl : (l, c) ∈ t.paths p) :
    (nodeAt a l.toNat).leaf = true ∧ l.toNat ∈ t.nodes ∧
      ∃ q, c = p ++ q ∧ follow a n q = some l ∧ q.length ≤ t.height := by
  induction h generalizing p with
  | leaf hleaf =>
    obtain ⟨rfl, rfl⟩ := Prod.mk.inj (List.mem_singleton.1 hl)
    exact ⟨hleaf, List.mem_singleton_self _, [], (List.append_nil _).symm, rfl, le_rfl⟩
  | fork hfork _ _ _ _ ihl ihr =>
    obtain hl | hl := List.mem_append.1 hl
    · obtain ⟨hleaf, hmem, q, rfl, hfollow, hlen⟩ := ihl hl
      refine ⟨hleaf, List.mem_cons_of_mem _ (List.mem_append_left _ hmem), false :: q, by simp, ?_, ?_⟩
      · simpa [follow, hfork, childOf] using hfollow
      · simp only [List.length_cons, SubTree.height]
        omega
    · obtain ⟨hleaf, hmem, q, rfl, hfollow, hlen⟩ := ihr hl
      refine ⟨hleaf, List.mem_cons_of_mem _ (List.mem_append_right _ hmem), true :: q, by simp, ?_, ?_⟩
      · simpa [follow, hfork, childOf] using hfollow
      · simp only [List.length_cons, SubTree.height]
        omega

theorem exists_path (h : Unfolds a n t) {l : NodeIndex} (hmem : l.toNat ∈ t.nodes)
    (hleaf : (nodeAt a l.toNat).leaf = true) (p : List Bool) : ∃ c, (l, c) ∈ t.paths p := by
  induction h generalizing p with
  | leaf _ =>
    obtain rfl := BitVec.eq_of_toNat_eq (List.mem_singleton.1 hmem)
    exact ⟨p, List.mem_singleton_self _⟩
  | fork hfork _ _ _ _ ihl ihr =>
    rw [SubTree.nodes, List.mem_cons, List.mem_append] at hmem
    obtain e | hmem | hmem := hmem
    · rw [e, hfork] at hleaf
      cases hleaf
    · exact (ihl hmem _).imp fun _ => List.mem_append_left _
    · exact (ihr hmem _).imp fun _ => List.mem_append_right _

end Unfolds

/-! The tree of a state in `BUILT` (10_state R29) -/

namespace State.Inv

variable {s : State} (h : s.Inv)
include h

theorem nleaf_le_of_fork {i : Nat} (hfork : (nodeAt s.node i).leaf = false) : s.nleaf.toNat ≤ i := by
  by_contra hlt
  have hleaf : (nodeAt s.node i).leaf = true := (h.leaves.shape i (by omega)).1
  simp [hfork] at hleaf

variable (hb : s.phase = .built)
include hb

/-- The leaf records are those below `NLEAF`. -/
theorem leaf_iff {i : Nat} (hi : i < s.nnode.toNat) : (nodeAt s.node i).leaf = true ↔ i < s.nleaf.toNat := by
  constructor
  · intro hleaf
    by_contra hge
    have hfork : (nodeAt s.node i).leaf = false := ((h.tree hb).internal i (by omega) hi).1
    simp [hfork] at hleaf
  · exact fun hlt => (h.leaves.shape i hlt).1

/-- Every node unfolds, to a tree no higher than there are internal nodes up to it, since an internal node is over
lower ones. -/
theorem exists_unfolds (n : NodeIndex) (hn : n.toNat < s.nnode.toNat) :
    ∃ t, Unfolds s.node n t ∧ t.height ≤ n.toNat + 1 - s.nleaf.toNat := by
  induction hk : n.toNat using Nat.strong_induction_on generalizing n with
  | _ k ih =>
    subst hk
    cases hleaf : (nodeAt s.node n.toNat).leaf with
    | true => exact ⟨.leaf n, .leaf hleaf, Nat.zero_le _⟩
    | false =>
      have hge := h.nleaf_le_of_fork hleaf
      obtain ⟨-, -, hleft, hright, -, -⟩ := (h.tree hb).internal n.toNat hge hn
      obtain ⟨l, hl, hhl⟩ := ih _ hleft _ (by omega) rfl
      obtain ⟨r, hr, hhr⟩ := ih _ hright _ (by omega) rfl
      refine ⟨.fork n l r, .fork hleaf hleft hright hl hr, ?_⟩
      simp only [SubTree.height]
      omega

/-- The tree under `ROOT` has each node of the arena below `NNODE` once: it has the root once, and every other node as
often as its one parent. -/
theorem nodes_perm_range {t : SubTree} (ht : Unfolds s.node s.root t) : t.nodes.Perm (List.range s.nnode.toNat) := by
  obtain ⟨hpos, hnnode, hroot⟩ := h.counts.built hb
  have hrange : s.root.toNat < s.nnode.toNat := by omega
  simp only [List.perm_iff_count, List.count_range]
  have habove : ∀ i > s.root.toNat, t.nodes.count i = if i < s.nnode.toNat then 1 else 0 := fun i hi => by
    rw [if_neg (by omega), List.count_eq_zero_of_not_mem fun hmem => hi.not_ge (ht.le_of_mem_nodes hmem)]
  refine Nat.strong_decreasing_induction ⟨_, habove⟩ fun i ih => ?_
  obtain hlt | rfl | hgt := lt_trichotomy i s.root.toNat
  · obtain ⟨p, ⟨hge, hp, hchild⟩, huniq⟩ := (h.tree hb).owned i hlt
    obtain ⟨hfork, -, hleft, hright, hdiff, -⟩ := (h.tree hb).internal p hge hp
    have hip : i < p := hchild.elim (fun e => e ▸ hleft) fun e => e ▸ hright
    rw [ht.count_eq_count_parent hfork hdiff fun q hq hqfork => ?_, ih p hip, if_neg hlt.ne', if_pos hp,
      if_pos (hlt.trans hrange)]
    exact ⟨huniq q (h.nleaf_le_of_fork hqfork) (hq.trans_lt hrange), fun e => e ▸ hchild⟩
  · rw [ht.count_top, if_pos hrange]
  · exact habove i hgt

end State.Inv

end Sys2Proof.Machine
end

section
/-!
PROOFS. The walk of 41_codegen R131 over a tree: it records every leaf with the digits that lead to it, and hands back
the stack and the path as they were.
-/

namespace Sys2Proof.Machine

/-! Digits of a path (00_scope R10) -/

@[simp] theorem length_digits (v : CodeVector) (d : Nat) : (digits v d).length = d := by simp [digits]

theorem digits_succ (v : CodeVector) (d : Nat) : digits v (d + 1) = digits v d ++ [v.getLsbD d] := by
  simp [digits, List.range_succ]

theorem digits_eq_of_succ {v : CodeVector} {d : Nat} {p : List Bool} {b : Bool} (h : digits v (d + 1) = p ++ [b]) :
    digits v d = p :=
  (List.append_inj' ((digits_succ v d).symm.trans h) rfl).1

theorem digits_setDigit (v : CodeVector) {d : Nat} (hd : d < 256) (b : Bool) :
    digits (setDigit v d b) (d + 1) = digits v d ++ [b] := by
  rw [digits_succ, getLsbD_setDigit v d d b hd, if_pos rfl]
  refine congrArg (· ++ [b]) (List.map_congr_left fun k hk => ?_)
  rw [getLsbD_setDigit v d k b hd, if_neg (List.mem_range.1 hk).ne]

/-- The code vector of a list of digits, 0 beyond them (10_state R31). -/
def codeVector (c : List Bool) : CodeVector := (BitVec.ofBoolListLE c).setWidth 256

theorem getLsbD_codeVector (c : List Bool) {k : Nat} (hk : k < 256) : (codeVector c).getLsbD k = c.getD k false := by
  simp [codeVector, hk]

theorem getLsbD_codeVector_of_le (c : List Bool) {k : Nat} (hk : c.length ≤ k) :
    (codeVector c).getLsbD k = false := by
  simp [codeVector, hk]

theorem digits_codeVector {c : List Bool} (hc : c.length ≤ 256) : digits (codeVector c) c.length = c := by
  refine List.ext_getElem (length_digits _ _) fun k hk hkc => ?_
  simp [digits, getLsbD_codeVector c (hkc.trans_le hc), hkc]

/-! Recording codes (41_codegen R131) -/

/-- A symbol's entry of the code table: `CVALID`, `CLEN` and `CBITS` (10_state R31). -/
def entryAt (t : CodeTable) (sym : Symbol) : Bool × BitVec 8 × CodeVector :=
  (flagAt t.valid sym, lenAt t sym, bitsAt t sym)

theorem eq_of_entryAt_eq {t u : CodeTable} (h : ∀ sym, entryAt t sym = entryAt u sym) : t = u := by
  obtain ⟨tv, tl, tb⟩ := t
  obtain ⟨uv, ul, ub⟩ := u
  have entry (i : Nat) (hi : i < 256) : tv[i] = uv[i] ∧ tl[i] = ul[i] ∧ tb[i] = ub[i] := by
    have := h (BitVec.ofNat 8 i)
    simpa [entryAt, flagAt, lenAt, bitsAt, Nat.mod_eq_of_lt hi] using this
  congr
  · exact Vector.ext fun i hi => (entry i hi).1
  · exact Vector.ext fun i hi => (entry i hi).2.1
  · exact Vector.ext fun i hi => (entry i hi).2.2

/-- The code `c` as the entry of a symbol. -/
def codeAsEntry (c : List Bool) : Bool × BitVec 8 × CodeVector := (true, BitVec.ofNat 8 c.length, codeVector c)

/-- `CVALID[s] <- 1; CLEN[s] <- d; CBITS[s] <- PATH & ((1 << d) - 1)` where the digits of the path are `c`. -/
def recordDigits (t : CodeTable) (sym : Symbol) (c : List Bool) : CodeTable := recordCode t sym c.length (codeVector c)

theorem recordCode_eq_recordDigits (t : CodeTable) (sym : Symbol) {d : Nat} (hd : d < 256) (path : CodeVector) :
    recordCode t sym d path = recordDigits t sym (digits path d) := by
  have hmask : path &&& ((1#256 <<< d) - 1#256) = codeVector (digits path d) &&& ((1#256 <<< d) - 1#256) := by
    refine BitVec.eq_of_getLsbD_eq fun k hk => ?_
    rw [getLsbD_masked path d k hd, getLsbD_masked _ d k hd, getLsbD_codeVector _ hk]
    by_cases hkd : k < d
    · simp [digits, hkd]
    · simp [hkd]
  rw [recordDigits, length_digits, recordCode, recordCode, hmask]

theorem entryAt_recordDigits_self (t : CodeTable) (sym : Symbol) {c : List Bool} (hc : c.length < 256) :
    entryAt (recordDigits t sym c) sym = codeAsEntry c := by
  have hmask : codeVector c &&& ((1#256 <<< c.length) - 1#256) = codeVector c := by
    refine BitVec.eq_of_getLsbD_eq fun k _ => ?_
    rw [getLsbD_masked _ _ k hc]
    by_cases hk : k < c.length
    · simp [hk]
    · simp [hk, getLsbD_codeVector_of_le c (not_lt.1 hk)]
  rw [entryAt, recordDigits, recordCode_valid, flagAt_setFlag_self, lenAt_recordCode_self, bitsAt_recordCode_self,
    hmask, codeAsEntry]

theorem entryAt_recordDigits_of_ne (t : CodeTable) {sym other : Symbol} (h : sym ≠ other) (c : List Bool) :
    entryAt (recordDigits t sym c) other = entryAt t other := by
  rw [entryAt, recordDigits, recordCode_valid, flagAt_setFlag_of_ne _ _ _ h, lenAt_recordCode_of_ne _ _ _ _ _ h,
    bitsAt_recordCode_of_ne _ _ _ _ _ h, entryAt]

/-- The table after the leaves of the list are recorded, each with the digits beside it. -/
def recordAll (a : Arena) (t : CodeTable) (paths : List (NodeIndex × List Bool)) : CodeTable :=
  paths.foldl (fun t path => recordDigits t (nodeAt a path.1.toNat).sym path.2) t

theorem recordAll_append (a : Arena) (t : CodeTable) (p q : List (NodeIndex × List Bool)) :
    recordAll a t (p ++ q) = recordAll a (recordAll a t p) q := List.foldl_append

/-- The entry of a symbol the list has is one of its paths, whatever the table held; every other entry stays. -/
theorem entryAt_recordAll (a : Arena) (sym : Symbol) (paths : List (NodeIndex × List Bool))
    (hlen : ∀ path ∈ paths, path.2.length < 256) :
    (∃ path ∈ paths, (nodeAt a path.1.toNat).sym = sym ∧
      ∀ t, entryAt (recordAll a t paths) sym = codeAsEntry path.2) ∨
    ((∀ path ∈ paths, (nodeAt a path.1.toNat).sym ≠ sym) ∧
      ∀ t, entryAt (recordAll a t paths) sym = entryAt t sym) := by
  induction paths using List.reverseRecOn with
  | nil => exact .inr ⟨fun _ h => absurd h List.not_mem_nil, fun _ => rfl⟩
  | append_singleton paths last ih =>
    simp only [recordAll_append]
    by_cases hlast : (nodeAt a last.1.toNat).sym = sym
    · refine .inl ⟨last, by simp, hlast, fun t => ?_⟩
      exact hlast ▸ entryAt_recordDigits_self _ _ (hlen last (by simp))
    · have hstep (t : CodeTable) : entryAt (recordAll a t [last]) sym = entryAt t sym :=
        entryAt_recordDigits_of_ne t hlast last.2
      simp only [hstep]
      obtain ⟨path, hmem, hsym, hentry⟩ | ⟨hne, hentry⟩ := ih fun path h => hlen path (List.mem_append_left _ h)
      · exact .inl ⟨path, List.mem_append_left _ hmem, hsym, hentry⟩
      · refine .inr ⟨fun path h => ?_, hentry⟩
        obtain h | h := List.mem_append.1 h
        · exact hne path h
        · exact List.mem_singleton.1 h ▸ hlast

/-! The loop -/

/-- What the loop does once a leaf is recorded: it ends, or takes the last pending node (41_codegen R131). -/
def resume (a : Arena) (fuel : Nat) (w : Walk) (t : CodeTable) : Option (Walk × CodeTable) :=
  if w.sp = 0 then some (w, t)
  else
    walkLoop a fuel (pendingAt w.stack (w.sp - 1).toNat).node (pendingAt w.stack (w.sp - 1).toNat).depth.toNat
      { w with sp := w.sp - 1, path := setDigit w.path ((pendingAt w.stack (w.sp - 1).toNat).depth.toNat - 1) true } t

theorem walkLoop_leaf_eq_resume {a : Arena} {n : NodeIndex} (h : (nodeAt a n.toNat).leaf = true) (fuel d : Nat)
    (w : Walk) (t : CodeTable) :
    walkLoop a (fuel + 1) n d w t = resume a fuel w (recordCode t (nodeAt a n.toNat).sym d w.path) := by
  unfold resume
  split_ifs with hs
  · exact walkLoop_last a fuel n d w t h hs
  · exact walkLoop_leaf a fuel n d w t h hs

/-- The move to a left child at depth `d + 1`, the right child being left pending (41_codegen R131). -/
def Walk.toLeft (w : Walk) (right : NodeIndex) (d : Nat) : Walk :=
  { push w { node := right, depth := BitVec.ofNat 8 (d + 1) } with path := setDigit w.path d false }

/-- The move to the last pending node, a right child at depth `d + 1` (41_codegen R131). -/
def Walk.toRight (w : Walk) (d : Nat) : Walk := { w with sp := w.sp - 1, path := setDigit w.path d true }

/-- Two walks with the same pending nodes and the same digits down to depth `d`. -/
structure Walk.SameTo (d : Nat) (w v : Walk) : Prop where
  sp : v.sp = w.sp
  pending : ∀ i, i < w.sp.toNat → pendingAt v.stack i = pendingAt w.stack i
  path : digits v.path d = digits w.path d

theorem Walk.SameTo.of_succ {d : Nat} {w v : Walk} (h : w.SameTo (d + 1) v) : w.SameTo d v :=
  ⟨h.sp, h.pending, digits_eq_of_succ (h.path.trans (digits_succ w.path d))⟩

theorem Walk.SameTo.trans {d : Nat} {u v w : Walk} (h : u.SameTo d v) (h' : v.SameTo d w) : u.SameTo d w :=
  ⟨h'.sp.trans h.sp, fun i hi => (h'.pending i (h.sp ▸ hi)).trans (h.pending i hi), h'.path.trans h.path⟩

section
variable {w v : Walk} {right : NodeIndex} {d : Nat} (hd : d < 255) (hsp : w.sp.toNat ≤ d)
include hd hsp

theorem Walk.toLeft_sp_toNat : (w.toLeft right d).sp.toNat = w.sp.toNat + 1 :=
  Nat.mod_eq_of_lt (show w.sp.toNat + 1 < 512 by omega)

theorem Walk.pendingAt_toLeft (i : Nat) :
    pendingAt (w.toLeft right d).stack i =
      if i = w.sp.toNat then { node := right, depth := BitVec.ofNat 8 (d + 1) } else pendingAt w.stack i :=
  pendingAt_push w _ i (by omega)

variable (h : (w.toLeft right d).SameTo (d + 1) v)
include h

/-- After the left child's tree the node pending last is the right child. -/
theorem resume_of_sameTo_toLeft (a : Arena) (fuel : Nat) (t : CodeTable) :
    resume a fuel v t = walkLoop a fuel right (d + 1) (v.toRight d) t := by
  have hpush : (w.toLeft right d).sp.toNat = w.sp.toNat + 1 := Walk.toLeft_sp_toNat hd hsp
  have hne : v.sp ≠ 0 := fun h0 => by
    rw [← h.sp, h0] at hpush
    exact absurd hpush (Nat.succ_ne_zero _).symm
  have hpop : v.sp - 1 = w.sp := by
    rw [h.sp]
    exact BitVec.add_sub_cancel _ _
  have htop : pendingAt v.stack w.sp.toNat = { node := right, depth := BitVec.ofNat 8 (d + 1) } := by
    rw [h.pending _ (by omega), Walk.pendingAt_toLeft hd hsp, if_pos rfl]
  have hdepth : (BitVec.ofNat 8 (d + 1)).toNat = d + 1 := Nat.mod_eq_of_lt (show d + 1 < 256 by omega)
  simp only [resume, if_neg hne, hpop, htop, hdepth, Walk.toRight, Nat.add_sub_cancel]

/-- The move to the right child leaves what the move to the left one found, with the last digit 1. -/
theorem Walk.SameTo.toRight :
    w.SameTo d (v.toRight d) ∧ digits (v.toRight d).path (d + 1) = digits w.path d ++ [true] := by
  have hpush : (w.toLeft right d).sp.toNat = w.sp.toNat + 1 := Walk.toLeft_sp_toNat hd hsp
  have hpath : digits v.path d = digits w.path d :=
    digits_eq_of_succ (h.path.trans (digits_setDigit w.path (by omega) false))
  have hright : digits (v.toRight d).path (d + 1) = digits w.path d ++ [true] := by
    rw [Walk.toRight, digits_setDigit _ (by omega), hpath]
  refine ⟨⟨?_, fun i hi => ?_, digits_eq_of_succ hright⟩, hright⟩
  · show v.sp - 1 = w.sp
    rw [h.sp]
    exact BitVec.add_sub_cancel _ _
  · exact (h.pending i (by omega)).trans ((Walk.pendingAt_toLeft hd hsp i).trans (if_neg hi.ne))

end

/-- From node `n` at depth `d` the walk records the leaves of `n`'s tree and goes on with the node that was pending
before it (41_codegen R131, R133). -/
theorem walkLoop_subtree {a : Arena} {n : NodeIndex} {t : SubTree} (h : Unfolds a n t) (fuel d : Nat) (w : Walk)
    (table : CodeTable) (hheight : d + t.height ≤ 255) (hsp : w.sp.toNat ≤ d) :
    ∃ v, w.SameTo d v ∧
      walkLoop a (fuel + t.nodes.length) n d w table =
        resume a fuel v (recordAll a table (t.paths (digits w.path d))) := by
  induction h generalizing fuel d w table with
  | leaf hleaf =>
    refine ⟨w, ⟨rfl, fun _ _ => rfl, rfl⟩, (walkLoop_leaf_eq_resume hleaf fuel d w table).trans ?_⟩
    rw [recordCode_eq_recordDigits table _ (by omega)]
    rfl
  | @fork n left right hfork _ _ _ _ ihl ihr =>
    simp only [SubTree.height] at hheight
    have hd : d < 255 := by omega
    have hpush := Walk.toLeft_sp_toNat (right := (nodeAt a n.toNat).right) hd hsp
    obtain ⟨vl, hvl, hleft⟩ := ihl (fuel + right.nodes.length) (d + 1) (w.toLeft (nodeAt a n.toNat).right d) table
      (by omega) (by omega)
    have hpathl : digits (w.toLeft (nodeAt a n.toNat).right d).path (d + 1) = digits w.path d ++ [false] :=
      digits_setDigit w.path (by omega) false
    obtain ⟨hsame, hpathr⟩ := hvl.toRight hd hsp
    obtain ⟨vr, hvr, hright⟩ := ihr fuel (d + 1) (vl.toRight d)
      (recordAll a table (left.paths (digits w.path d ++ [false]))) (by omega) (by rw [hsame.sp]; omega)
    refine ⟨vr, hsame.trans hvr.of_succ, ?_⟩
    have hfuel : fuel + (SubTree.fork n left right).nodes.length =
        fuel + right.nodes.length + left.nodes.length + 1 := by
      simp only [SubTree.nodes, List.length_cons, List.length_append]
      omega
    calc walkLoop a (fuel + (SubTree.fork n left right).nodes.length) n d w table
      _ = walkLoop a (fuel + right.nodes.length + left.nodes.length) (nodeAt a n.toNat).left (d + 1)
            (w.toLeft (nodeAt a n.toNat).right d) table := by
          rw [hfuel, walkLoop_internal a _ n d w table hfork]
          rfl
      _ = walkLoop a (fuel + right.nodes.length) (nodeAt a n.toNat).right (d + 1) (vl.toRight d)
            (recordAll a table (left.paths (digits w.path d ++ [false]))) := by
          rw [hleft, hpathl, resume_of_sameTo_toLeft hd hsp hvl]
      _ = resume a fuel vr (recordAll a table ((SubTree.fork n left right).paths (digits w.path d))) := by
          rw [hright, hpathr, ← recordAll_append]
          rfl

/-- `Traverse()` over a tree records its leaves in a table with every `CVALID` cleared, where the tree is no higher
and no larger than 10_state R29 lets it be (41_codegen R131, 70_reset_and_hazards R238). -/
theorem traverse_eq_recordAll {s : State} {t : SubTree} (h : Unfolds s.node s.root t) (hheight : t.height ≤ 255)
    (hsize : t.nodes.length ≤ 511) :
    ∃ w, traverse s =
      some (w, recordAll s.node { s.table with valid := Vector.replicate 256 false } (t.paths [])) := by
  obtain ⟨w, hw, hwalk⟩ := walkLoop_subtree h (511 - t.nodes.length) 0 { s.walk with sp := 0 }
    { s.table with valid := Vector.replicate 256 false } (by omega) le_rfl
  rw [Nat.sub_add_cancel hsize] at hwalk
  exact ⟨w, hwalk.trans (if_pos hw.sp)⟩

end Sys2Proof.Machine
end

section
/-!
PROOFS. The words of a command that reads no `ARG` (30_encoding R83, R88).
-/

namespace Sys2Proof

/-- A word decodes to a command exactly if it is the command's opcode and field bits, where the fields the decoder
reads are the command's exactly if `CMD[23:0]` is. -/
theorem decode_eq_ok_iff {i : Instr} {w arg : Word} (hfit : i.fieldBits &&& reservedMask i.mnemonic.format = 0)
    (hfields : ∀ v : Word, operandField v &&& reservedMask i.mnemonic.format = 0 →
      (withFields i.mnemonic v arg = i ↔ operandField v = i.fieldBits)) :
    decode w arg = .ok i ↔ w = (i.mnemonic.opcode ++ i.fieldBits : BitVec (8 + 24)) := by
  constructor
  · intro h
    obtain ⟨m, hopc, hres, hi⟩ := decode_ok h
    obtain rfl : i.mnemonic = m := by rw [hi, mnemonic_withFields]
    rw [hopc, ← (hfields w hres).1 hi.symm, opcode_append_operand]
  · rintro rfl
    have hop : operandField (i.mnemonic.opcode ++ i.fieldBits) = i.fieldBits := operandField_append _ _
    refine (decode_opcode_append i.mnemonic i.fieldBits arg).trans ?_
    rw [if_pos hfit, (hfields _ (by rw [hop]; exact hfit)).2 hop]

/-- The only word of GENCODES (30_encoding R87). -/
theorem decode_eq_gencodes_iff (w arg : Word) : decode w arg = .ok .gencodes ↔ w = 0x04000000 := by
  refine decode_eq_ok_iff (i := .gencodes) (by decide) fun v hres => ⟨fun _ => ?_, fun _ => rfl⟩
  have hall : reservedMask Mnemonic.gencodes.format = BitVec.allOnes 24 := rfl
  rwa [show Instr.gencodes.mnemonic = .gencodes from rfl, hall, BitVec.and_allOnes] at hres

end Sys2Proof
end

section
/-!
PROOFS. GENCODES (41_codegen R130, R132): the code table it writes holds the paths of the tree's leaves.
-/

namespace Sys2Proof.Machine

/-- The table with every `CVALID` cleared (41_codegen R131). -/
def CodeTable.invalidated (t : CodeTable) : CodeTable := { t with valid := Vector.replicate 256 false }

theorem entryAt_invalidated (t : CodeTable) (sym : Symbol) :
    entryAt t.invalidated sym = (false, lenAt t sym, bitsAt t sym) :=
  congrArg (·, _) (flagAt_replicate false sym)

theorem entryAt_eq_iff {t : CodeTable} {sym : Symbol} {valid : Bool} {len : BitVec 8} {bits : CodeVector} :
    entryAt t sym = (valid, len, bits) ↔ flagAt t.valid sym = valid ∧ lenAt t sym = len ∧ bitsAt t sym = bits := by
  rw [entryAt, Prod.mk.injEq, Prod.mk.injEq]

/-- A symbol whose entry is the path to its leaf has that leaf's code (10_state R31, R32). -/
theorem hasLeafCode_of_entryAt {s : State} {sym : Symbol} {l : NodeIndex} {c : List Bool} (hc : c.length < 256)
    (hentry : entryAt s.table sym = codeAsEntry c) (hl : l.toNat < s.nleaf.toNat)
    (hsym : (nodeAt s.node l.toNat).sym = sym) (hfollow : follow s.node s.root c = some l) : HasLeafCode s sym := by
  obtain ⟨-, hlen, hbits⟩ := entryAt_eq_iff.1 hentry
  have hlength : (lenAt s.table sym).toNat = c.length := by
    rw [hlen]
    exact Nat.mod_eq_of_lt hc
  refine ⟨⟨l, hl, hsym, ?_⟩, fun k hk => ?_⟩
  · rwa [codeOf, hlength, hbits, digits_codeVector hc.le]
  · rw [hbits]
    exact getLsbD_codeVector_of_le c (hlength ▸ hk)

/-- The list has the leaves of the built tree, each with its path from `ROOT`, and is what the walk records. -/
structure LeafPaths (s : State) (paths : List (NodeIndex × List Bool)) : Prop where
  short : ∀ path ∈ paths, path.2.length < 256
  follows : ∀ path ∈ paths, path.1.toNat < s.nleaf.toNat ∧ follow s.node s.root path.2 = some path.1
  complete : ∀ l, l < s.nleaf.toNat → ∃ path ∈ paths, path.1.toNat = l
  walk : ∀ u : State, u.node = s.node → u.root = s.root →
    ∃ w, traverse u = some (w, recordAll s.node u.table.invalidated paths)

/-- In `BUILT` the paths of the tree's leaves are such a list (10_state R29). -/
theorem State.Inv.exists_leafPaths {s : State} (h : s.Inv) (hb : s.phase = .built) : ∃ paths, LeafPaths s paths := by
  obtain ⟨hpos, hnnode, hroot⟩ := h.counts.built hb
  have hle := h.counts.leaves_le
  obtain ⟨t, ht, hheight⟩ := h.exists_unfolds hb s.root (by omega)
  have hperm := h.nodes_perm_range hb ht
  have hsize : t.nodes.length = s.nnode.toNat := hperm.length_eq.trans List.length_range
  refine ⟨t.paths [], fun path hpath => ?_, fun path hpath => ?_, fun l hl => ?_, fun u hnode hroot' => ?_⟩
  · obtain ⟨-, -, q, hq, -, hlen⟩ := ht.follow_of_mem_paths hpath
    rw [hq, List.nil_append]
    omega
  · obtain ⟨hleaf, hmem, q, hq, hfollow, -⟩ := ht.follow_of_mem_paths hpath
    refine ⟨(h.leaf_iff hb (List.mem_range.1 (hperm.mem_iff.1 hmem))).1 hleaf, ?_⟩
    rw [hq]
    exact hfollow
  · have hindex : (BitVec.ofNat 9 l).toNat = l := Nat.mod_eq_of_lt (show l < 512 by omega)
    have hmem : l ∈ t.nodes := hperm.mem_iff.2 (List.mem_range.2 (by omega))
    obtain ⟨c, hc⟩ := ht.exists_path (l := BitVec.ofNat 9 l) (by rwa [hindex])
      (by rw [hindex]; exact (h.leaves.shape l hl).1) []
    exact ⟨_, hc, hindex⟩
  · have hu : Unfolds u.node u.root t := hnode ▸ hroot' ▸ ht
    exact hnode ▸ traverse_eq_recordAll hu (by omega) (by omega)

theorem exec_gencodes_of_not_built {s : State} (h : s.phase ≠ .built) :
    exec .gencodes s = .next (s.answered 0x04000005 0) := by
  rw [exec, execGencodes, if_pos h]
  rfl

theorem exec_gencodes_of_traverse {s : State} {r : Walk × CodeTable} (hb : s.phase = .built)
    (hr : traverse s = some r) :
    exec .gencodes s = .next ((s.withCodes r).answered 0x04000000 (BitVec.ofNat 32 s.nleaf.toNat)) := by
  rw [exec, execGencodes, if_neg (not_not.2 hb), hr, BitVec.ofNat_toNat]
  rfl

namespace LeafPaths

variable {s : State} {paths : List (NodeIndex × List Bool)} (h : LeafPaths s paths)
include h

/-- GENCODES gives a loaded symbol's entry the path to a leaf of the symbol, whatever the table held, and leaves the
length and the digits of another symbol's as they were. -/
theorem entry_cases (sym : Symbol) :
    (∃ path ∈ paths, (nodeAt s.node path.1.toNat).sym = sym ∧
      ∀ t : CodeTable, entryAt (recordAll s.node t.invalidated paths) sym = codeAsEntry path.2) ∨
    ((∀ l, l < s.nleaf.toNat → (nodeAt s.node l).sym ≠ sym) ∧
      ∀ t : CodeTable, entryAt (recordAll s.node t.invalidated paths) sym = (false, lenAt t sym, bitsAt t sym)) := by
  obtain ⟨path, hmem, hsym, hentry⟩ | ⟨hne, hentry⟩ := entryAt_recordAll s.node sym paths h.short
  · exact .inl ⟨path, hmem, hsym, fun t => hentry t.invalidated⟩
  · refine .inr ⟨fun l hl => ?_, fun t => (hentry t.invalidated).trans (entryAt_invalidated t sym)⟩
    obtain ⟨path, hmem, rfl⟩ := h.complete l hl
    exact hne path hmem

/-- Recording over the table GENCODES wrote changes nothing. -/
theorem recordAll_idem (t : CodeTable) :
    recordAll s.node (recordAll s.node t.invalidated paths).invalidated paths =
      recordAll s.node t.invalidated paths := by
  refine eq_of_entryAt_eq fun sym => ?_
  obtain ⟨path, -, -, hentry⟩ | ⟨-, hentry⟩ := h.entry_cases sym
  · rw [hentry, hentry]
  · obtain ⟨-, hlen, hbits⟩ := entryAt_eq_iff.1 (hentry t)
    rw [hentry, hentry t, hlen, hbits]

/-- After GENCODES a symbol has a code exactly if a leaf holds it (41_codegen R130). -/
theorem flagAt_recordAll (t : CodeTable) (sym : Symbol) :
    flagAt (recordAll s.node t.invalidated paths).valid sym = true ↔
      ∃ l, l < s.nleaf.toNat ∧ (nodeAt s.node l).sym = sym := by
  obtain ⟨path, hmem, hsym, hentry⟩ | ⟨hne, hentry⟩ := h.entry_cases sym
  · exact iff_of_true (entryAt_eq_iff.1 (hentry t)).1 ⟨_, (h.follows path hmem).1, hsym⟩
  · exact iff_of_false (by simp [(entryAt_eq_iff.1 (hentry t)).1]) fun ⟨l, hl, hsym⟩ => hne l hl hsym

/-- The code is the path to the symbol's leaf (41_codegen R132). -/
theorem hasLeafCode (t : CodeTable) {sym : Symbol}
    (hvalid : flagAt (recordAll s.node t.invalidated paths).valid sym = true) :
    HasLeafCode { s with table := recordAll s.node t.invalidated paths } sym := by
  obtain ⟨path, hmem, hsym, hentry⟩ | ⟨-, hentry⟩ := h.entry_cases sym
  · obtain ⟨hlt, hfollow⟩ := h.follows path hmem
    exact hasLeafCode_of_entryAt (h.short path hmem) (hentry t) hlt hsym hfollow
  · simp [(entryAt_eq_iff.1 (hentry t)).1] at hvalid

/-- The entry of a symbol without a code is as it was, but for `CVALID` (41_codegen R130, R131). -/
theorem entry_of_not_valid (t : CodeTable) {sym : Symbol}
    (hvalid : flagAt (recordAll s.node t.invalidated paths).valid sym = false) :
    lenAt (recordAll s.node t.invalidated paths) sym = lenAt t sym ∧
      bitsAt (recordAll s.node t.invalidated paths) sym = bitsAt t sym := by
  obtain ⟨path, -, -, hentry⟩ | ⟨-, hentry⟩ := h.entry_cases sym
  · simp [(entryAt_eq_iff.1 (hentry t)).1] at hvalid
  · exact (entryAt_eq_iff.1 (hentry t)).2

/-- GENCODES writes the table with the leaves' paths recorded (41_codegen R130). -/
theorem exec_gencodes {u : State} (hb : u.phase = .built) (hnode : u.node = s.node) (hroot : u.root = s.root) :
    ∃ w, exec .gencodes u = .next ((u.withCodes (w, recordAll s.node u.table.invalidated paths)).answered 0x04000000
      (BitVec.ofNat 32 u.nleaf.toNat)) :=
  (h.walk u hnode hroot).imp fun _ => exec_gencodes_of_traverse hb

/-- A GENCODES over the table of another one on the same tree leaves that table. -/
theorem sameTable_of_exec_gencodes {t u : State} {table : CodeTable} (hb : t.phase = .built) (hnode : t.node = s.node)
    (hroot : t.root = s.root) (htv : t.tv = true) (htable : t.table = recordAll s.node table.invalidated paths)
    (hu : exec .gencodes t = .next u) : SameTable t u := by
  obtain ⟨w, hexec⟩ := h.exec_gencodes hb hnode hroot
  cases hexec.symm.trans hu
  refine ⟨htv.symm, ?_⟩
  show recordAll s.node t.table.invalidated paths = t.table
  rw [htable, h.recordAll_idem]

end LeafPaths

/-- Settles O46: the walk records the paths of the tree's leaves, and a second walk the same ones over them. -/
theorem gencodesFollowsRule : Obligations.GencodesFollowsRule := by
  intro s arg
  refine ⟨fun w => decode_eq_gencodes_iff w arg, exec_gencodes_of_not_built, fun hinv hb => ?_⟩
  obtain ⟨paths, hpaths⟩ := hinv.exists_leafPaths hb
  obtain ⟨w, hexec⟩ := hpaths.exec_gencodes hb rfl rfl
  exact ⟨_, hexec, rfl, rfl, hpaths.flagAt_recordAll s.table, fun _ => hpaths.hasLeafCode s.table,
    fun _ => hpaths.entry_of_not_valid s.table, ⟨rfl, rfl, rfl, rfl, rfl, rfl, rfl⟩, ⟨rfl, rfl⟩, rfl,
    fun _ => hpaths.sameTable_of_exec_gencodes hb rfl rfl rfl rfl⟩

end Sys2Proof.Machine
end

section
/-!
PROOFS. LOOKUP and READCODE (41_codegen R135, R137): the words that are one, and what they read of a symbol's entry.
-/

namespace Sys2Proof

/-- Where `SYM` is read beside reserved bits alone, it is the symbol exactly if `CMD[23:0]` is (30_encoding R83). -/
theorem symField_eq_iff {w : Word} (hres : operandField w &&& reservedMask .s = 0) (sym : Symbol) :
    symField w = sym ↔ operandField w = 0#16 ++ sym := by
  rw [(fields_of_operandField w).1]
  constructor
  · rintro rfl
    exact Machine.eq_append_of_symFormat hres
  · intro h
    rw [h]
    exact BitVec.extractLsb'_append_eq_right

/-- With its thirteen reserved bits 0, an operand field of format SK is its `K` and its symbol (30_encoding R83). -/
theorem eq_append_of_skFormat {f : BitVec 24} (h : f &&& reservedMask .sk = 0) :
    f = 0#13 ++ f.extractLsb' 8 3 ++ f.extractLsb' 0 8 := by
  have hmask : reservedMask .sk = BitVec.allOnes 13 ++ 0#11 := by decide
  refine BitVec.eq_of_getLsbD_eq fun i hi => ?_
  have hbit := congrArg (BitVec.getLsbD · i) h
  simp only [hmask, BitVec.getLsbD_and, BitVec.getLsbD_append, BitVec.getLsbD_allOnes, BitVec.getLsbD_zero] at hbit
  simp only [BitVec.getLsbD_append, BitVec.getLsbD_extractLsb', Nat.zero_add]
  by_cases h8 : i < 8
  · simp [h8]
  by_cases h11 : i < 11
  · simp [h8, show i - 8 < 3 by omega, show 8 + (i - 8) = i by omega]
  · simpa [h8, h11, show ¬ i - 8 < 3 by omega, show i - 11 < 13 by omega] using hbit

theorem decode_eq_lookup_iff (w arg : Word) (sym : Symbol) :
    decode w arg = .ok (.lookup sym) ↔ w = (0x05#8 ++ (0#16 ++ sym) : BitVec (8 + (16 + 8))) :=
  decode_eq_ok_iff (i := .lookup sym) (Laws.EncodingFields.sym_fits sym) fun _ hres =>
    Instr.lookup.injEq .. ▸ symField_eq_iff hres sym

theorem decode_eq_readcode_iff (w arg : Word) (sym : Symbol) (k : BitVec 3) :
    decode w arg = .ok (.readcode sym k) ↔ w = (0x06#8 ++ (0#13 ++ k ++ sym) : BitVec (8 + (13 + 3 + 8))) := by
  refine decode_eq_ok_iff (i := .readcode sym k) (Laws.EncodingFields.readcode_fits sym k) fun v hres => ?_
  obtain ⟨hsym, hk, -⟩ := fields_of_operandField v
  show Instr.readcode (symField v) (kField v) = .readcode sym k ↔ operandField v = 0#13 ++ k ++ sym
  rw [Instr.readcode.injEq, hsym, hk]
  constructor
  · rintro ⟨rfl, rfl⟩
    exact eq_append_of_skFormat hres
  · intro h
    rw [h]
    refine ⟨BitVec.extractLsb'_append_eq_right, BitVec.eq_of_getLsbD_eq fun j hj => ?_⟩
    show ((0#13 ++ k ++ sym : BitVec (13 + 3 + 8)).extractLsb' 8 3).getLsbD j = k.getLsbD j
    simp only [BitVec.getLsbD_extractLsb', BitVec.getLsbD_append]
    simp [hj]

end Sys2Proof

namespace Sys2Proof.Machine

theorem codeEntry_of_not_valid {s : State} {sym : Symbol} (h : s.tv = false ∨ flagAt s.table.valid sym = false) :
    codeEntry sym s = none :=
  if_neg (by obtain h | h := h <;> simp [h])

theorem codeEntry_of_valid {s : State} {sym : Symbol} (htv : s.tv = true) (h : flagAt s.table.valid sym = true) :
    codeEntry sym s = some (lenAt s.table sym, bitsAt s.table sym) :=
  if_pos (by simp [htv, h])

theorem getLsbD_codeWord (bits : CodeVector) (k : BitVec 3) {j : Nat} (hj : j < 32) :
    (codeWord bits k).getLsbD j = bits.getLsbD (32 * k.toNat + j) := by
  simp [codeWord, hj]

/-- Settles O47: LOOKUP answers by the symbol's entry, as `codeEntry` reads it. -/
theorem lookupFollowsRule : Obligations.LookupFollowsRule := by
  intro s sym arg
  refine ⟨fun w => decode_eq_lookup_iff w arg sym, fun h => ?_, fun htv h => ?_⟩ <;> rw [exec, execLookup]
  · rw [codeEntry_of_not_valid h]
    rfl
  · rw [codeEntry_of_valid htv h, BitVec.ofNat_toNat]
    rfl

/-- Settles O48: READCODE answers by the symbol's entry, whose bits beyond the length are 0 by the table's invariant. -/
theorem readcodeFollowsRule : Obligations.ReadcodeFollowsRule := by
  intro s sym k arg
  refine ⟨fun w => decode_eq_readcode_iff w arg sym k, fun h => ?_, fun htv h => ?_⟩ <;> rw [exec, execReadcode]
  · rw [codeEntry_of_not_valid h]
    rfl
  · rw [codeEntry_of_valid htv h]
    refine ⟨codeWord (bitsAt s.table sym) k, rfl, fun j hj => getLsbD_codeWord _ k hj, fun hinv j hj hlen => ?_⟩
    obtain ⟨-, hbeyond⟩ := hinv.table.codes sym h
    rw [getLsbD_codeWord _ k hj, hbeyond _ hlen]

end Sys2Proof.Machine
end

section
/-!
PROOFS. Who writes the code table and who reads it (41_codegen R138).
-/

namespace Sys2Proof.Machine

/-- Of the commands that succeed, GENCODES and CLEAR alone write the table. -/
theorem Success.sameTable {s u : State} {i : Instr} {d : Word} (h : Success s i u d) (hgen : i ≠ .gencodes)
    (hclear : i ≠ .clear) : SameTable s u := by
  cases h with
  | gencodes => exact absurd rfl hgen
  | clear => exact absurd rfl hclear
  | _ => exact ⟨rfl, rfl⟩

theorem Ended.sameTable {s t : State} {i : Instr} (h : Ended s i t) (hgen : i ≠ .gencodes) (hclear : i ≠ .clear) :
    SameTable s t := by
  cases h with
  | quiet | invalidBit | truncated => exact ⟨rfl, rfl⟩
  | success u d hs => exact hs.sameTable hgen hclear

/-! Other contents of the table -/

/-- `s` with other contents of `TV` and the code table. -/
def State.withTable (s : State) (v : Bool) (tb : CodeTable) : State := { s with tv := v, table := tb }

/-- The outcome `r` with other contents of `TV` and the code table. -/
def Result.withTable (r : Result) (v : Bool) (tb : CodeTable) : Result :=
  match r with
  | .next t => .next (t.withTable v tb)
  | .fault f => .fault f
  | .refused f => .refused f

section
variable (s : State) (v : Bool) (tb : CodeTable)

theorem ite_withTable (c : Prop) [Decidable c] (r r' : Result) :
    Result.withTable (if c then r else r') v tb = if c then r.withTable v tb else r'.withTable v tb :=
  apply_ite (Result.withTable · v tb) c r r'

theorem walkStep_withTable (m : Mnemonic) (dir : Bool) :
    walkStep m dir (s.withTable v tb) = Result.withTable (walkStep m dir s) v tb := by
  simp only [walkStep, ite_withTable]
  rfl

/-- The decoder commands choose by the tree, the phase and the decoder alone, and carry the table along
(41_codegen R138). -/
theorem exec_withTable {i : Instr} (hi : i.mnemonic ∈ [Mnemonic.decstart, .decbit, .decraw, .decroot, .decend]) :
    exec i (s.withTable v tb) = Result.withTable (exec i s) v tb := by
  cases i with
  | decstart =>
    simp only [exec, execDecstart, ite_withTable]
    rfl
  | decbit ch =>
    simp only [exec, execDecbit, ite_withTable]
    cases digitOfChar ch with
    | none => rfl
    | some dir =>
      simp only [walkStep_withTable]
      rfl
  | decraw bit =>
    simp only [exec, execDecraw, ite_withTable, walkStep_withTable]
    rfl
  | decroot =>
    simp only [exec, execDecroot, ite_withTable]
    rfl
  | decend =>
    simp only [exec, execDecend, ite_withTable]
    rfl
  | _ => simp [Instr.mnemonic] at hi

end

/-- Settles O28: the writes read off how a command can end, the decoder by its commutation with `withTable`. -/
theorem tableReadOnlyAndUnreadByDecoder : Obligations.TableReadOnlyAndUnreadByDecoder :=
  ⟨fun _ _ _ h => (exec_cases h).sameTable, fun _ s _ v tb hi h =>
    (exec_withTable s v tb hi).trans (congrArg (Result.withTable · v tb) h)⟩

end Sys2Proof.Machine
end

section
/-!
PROOFS. The words of the decoder's commands (30_encoding R83, R87, R88).
-/

namespace Sys2Proof

/-- A command of format N carries no operand, so the decoder reads nothing beside its opcode (30_encoding R83). -/
theorem fields_of_format_n {i : Instr} (h : i.mnemonic.format = .n) :
    i.fieldBits = 0 ∧ ∀ cmd arg, withFields i.mnemonic cmd arg = i := by
  cases i with
  | nop | clear | build | gencodes | decstart | decroot | decend => exact ⟨rfl, fun _ _ => rfl⟩
  | load | lookup | readcode | nodefreq | nodelink | info | decbit | decraw => cases h

/-- A command of format N has one word, its opcode with 24 zero bits (30_encoding R83, R87). -/
theorem decode_eq_ok_iff_of_format_n {i : Instr} (h : i.mnemonic.format = .n) (w arg : Word) :
    decode w arg = .ok i ↔ w = (i.mnemonic.opcode ++ 0#24 : BitVec (8 + 24)) := by
  obtain ⟨hbits, hfields⟩ := fields_of_format_n h
  have hmask : reservedMask i.mnemonic.format = BitVec.allOnes 24 := by rw [h]; rfl
  rw [show (0#24) = i.fieldBits from hbits.symm]
  refine decode_eq_ok_iff (by simp [hbits]) fun v hres => ⟨fun _ => ?_, fun _ => hfields v arg⟩
  rwa [hmask, BitVec.and_allOnes, ← hbits] at hres

theorem decode_eq_decbit_iff (w arg : Word) (ch : BitVec 8) :
    decode w arg = .ok (.decbit ch) ↔ w = (0x11#8 ++ (0#16 ++ ch) : BitVec (8 + (16 + 8))) :=
  decode_eq_ok_iff (i := .decbit ch) (Laws.EncodingFields.sym_fits ch) fun _ hres =>
    Instr.decbit.injEq .. ▸ symField_eq_iff hres ch

/-- Where `BIT` is read beside reserved bits alone, it is the bit exactly if `CMD[23:0]` is (30_encoding R83). -/
theorem bitField_eq_iff {w : Word} (hres : operandField w &&& reservedMask .b = 0) (bit : BitVec 1) :
    bitField w = bit ↔ operandField w = 0#23 ++ bit := by
  obtain ⟨-, -, -, -, hbit⟩ := fields_of_operandField w
  rw [hbit]
  constructor
  · rintro rfl
    have hmask : reservedMask .b = BitVec.allOnes 23 ++ 0#1 := by decide
    refine BitVec.eq_of_getLsbD_eq fun i hi => ?_
    have hzero := congrArg (BitVec.getLsbD · i) hres
    simp only [hmask, BitVec.getLsbD_and, BitVec.getLsbD_append, BitVec.getLsbD_allOnes, BitVec.getLsbD_zero] at hzero
    rw [BitVec.getLsbD_append, BitVec.getLsbD_extractLsb', Nat.zero_add]
    by_cases h1 : i < 1
    · simp [h1]
    · simpa [h1, show i - 1 < 23 by omega] using hzero
  · intro h
    rw [h]
    exact BitVec.extractLsb'_append_eq_right

theorem decode_eq_decraw_iff (w arg : Word) (bit : BitVec 1) :
    decode w arg = .ok (.decraw bit) ↔ w = (0x12#8 ++ (0#23 ++ bit) : BitVec (8 + (23 + 1))) :=
  decode_eq_ok_iff (i := .decraw bit) (Laws.EncodingFields.bit_fits bit) fun _ hres =>
    Instr.decraw.injEq .. ▸ bitField_eq_iff hres bit

end Sys2Proof
end

section
/-!
PROOFS. The decoder's commands, guard by guard (42_decoder R151, R153, R155, R157, R162).
-/

namespace Sys2Proof.Machine

/-! The two ways to send a digit -/

/-- A command that sends the digit `dir`, as a bit character or as a raw bit (42_decoder R154, R155). -/
inductive Sends (dir : Bool) : Instr → Prop
  | char (ch : BitVec 8) : digitOfChar ch = some dir → Sends dir (.decbit ch)
  | raw (bit : BitVec 1) : digitOfBit bit = dir → Sends dir (.decraw bit)

theorem Sends.mnemonic_mem {dir : Bool} {i : Instr} {ms : List Mnemonic} (h : Sends dir i)
    (hms : [Mnemonic.decbit, .decraw] ⊆ ms) : i.mnemonic ∈ ms := by
  cases h with
  | char => exact hms (List.mem_cons_self ..)
  | raw => exact hms (List.mem_cons_of_mem _ (List.mem_cons_self ..))

theorem digitOfChar_eq_none {ch : BitVec 8} (h0 : ch ≠ 0x30) (h1 : ch ≠ 0x31) : digitOfChar ch = none :=
  (if_neg h0).trans (if_neg h1)

theorem sends_charOfDigit (d : Bool) : Sends d (.decbit (charOfDigit d)) := .char _ (by revert d; decide)

/-- DECBIT's character for DECRAW's bit (42_decoder R154, R155). -/
theorem sends_charOfBit (bit : BitVec 1) : Sends (digitOfBit bit) (.decbit (if bit = 0 then 0x30 else 0x31)) :=
  .char _ (by revert bit; decide)

/-! The errors the commands share -/

/-- No decoder command does anything before a tree exists (42_decoder R151, R153, R155, R157, R162). -/
theorem exec_decoder_of_not_built {i : Instr} {m : Mnemonic} {s : State} (hi : i.mnemonic = m)
    (hm : m ∈ [Mnemonic.decstart, .decbit, .decraw, .decroot, .decend]) (hb : s.phase ≠ .built) :
    exec i s = .next (s.answered (responseWord m.opcode .nullTree) 0) := by
  subst hi
  cases i with
  | decstart | decbit | decraw | decroot | decend => exact if_pos hb
  | _ => simp [Instr.mnemonic] at hm

/-- All but DECSTART need an open stream (42_decoder R153, R155, R157, R162). -/
theorem exec_decoder_of_not_active {i : Instr} {m : Mnemonic} {s : State} (hi : i.mnemonic = m)
    (hm : m ∈ [Mnemonic.decbit, .decraw, .decroot, .decend]) (hb : s.phase = .built) (ha : s.dstate ≠ .active) :
    exec i s = .next (s.answered (responseWord m.opcode .sequence) 0) := by
  subst hi
  cases i with
  | decbit | decraw | decroot | decend => exact (if_neg (not_not.2 hb)).trans (if_pos ha)
  | _ => simp [Instr.mnemonic] at hm

/-- The digit commands need an internal root (42_decoder R153, R155). -/
theorem exec_digit_of_root_leaf {i : Instr} {m : Mnemonic} {s : State} (hi : i.mnemonic = m)
    (hm : m ∈ [Mnemonic.decbit, .decraw]) (hb : s.phase = .built) (ha : s.dstate = .active)
    (hroot : (nodeAt s.node s.root.toNat).leaf = true) :
    exec i s = .next (s.answered (responseWord m.opcode .rootKind) 0) := by
  subst hi
  cases i with
  | decbit | decraw => exact (if_neg (not_not.2 hb)).trans ((if_neg (not_not.2 ha)).trans (if_pos hroot))
  | _ => simp [Instr.mnemonic] at hm

/-! The commands once their guards are met -/

theorem exec_decstart_of_built {s : State} (hb : s.phase = .built) :
    exec .decstart s =
      .next ({ s with cursor := s.root, dstate := .active }.answered 0x10000000 (s.root.setWidth 32)) :=
  if_neg (not_not.2 hb)

section
variable {s : State} (hb : s.phase = .built) (ha : s.dstate = .active)
include hb ha

/-- The digit commands share one walk (42_decoder R153, R155). -/
theorem exec_of_sends {dir : Bool} {i : Instr} {m : Mnemonic} (hm : i.mnemonic = m) (hi : Sends dir i)
    (hroot : (nodeAt s.node s.root.toNat).leaf = false) : exec i s = walkStep m dir s := by
  subst hm
  cases hi with
  | char ch hch => simp [exec, execDecbit, rootNode, Instr.mnemonic, hb, ha, hroot, hch]
  | raw bit hbit => simp [exec, execDecraw, rootNode, Instr.mnemonic, hb, ha, hroot, hbit]

theorem exec_decbit_of_no_digit {ch : BitVec 8} (hroot : (nodeAt s.node s.root.toNat).leaf = false)
    (hch : digitOfChar ch = none) :
    exec (.decbit ch) s = .next ({ s with dstate := .failed }.answered 0x11000003 0) := by
  rw [exec, execDecbit, if_neg (not_not.2 hb), if_neg (not_not.2 ha), rootNode, hroot, if_neg Bool.false_ne_true, hch]
  rfl

theorem exec_decroot_of_root_leaf (hroot : (nodeAt s.node s.root.toNat).leaf = true) :
    exec .decroot s = .next (s.answered 0x13000000 (emitted (nodeAt s.node s.root.toNat).sym)) := by
  simp only [exec, execDecroot, rootNode, hb, ha, hroot]
  rfl

theorem exec_decroot_of_root_internal (hroot : (nodeAt s.node s.root.toNat).leaf = false) :
    exec .decroot s = .next (s.answered 0x1300000B 0) := by
  simp only [exec, execDecroot, rootNode, hb, ha, hroot]
  rfl

theorem exec_decend_of_ne_root (hc : s.cursor ≠ s.root) :
    exec .decend s = .next ({ s with dstate := .failed }.answered 0x14000004 0) :=
  (if_neg (not_not.2 hb)).trans ((if_neg (not_not.2 ha)).trans (if_pos hc))

theorem exec_decend_of_root (hc : s.cursor = s.root) :
    exec .decend s = .next ({ s with dstate := .idle }.answered 0x14000000 0) :=
  (if_neg (not_not.2 hb)).trans ((if_neg (not_not.2 ha)).trans (if_neg (not_not.2 hc)))

end

/-! The walk -/

theorem walkStep_of_leaf {s : State} {dir : Bool} (m : Mnemonic)
    (h : (nodeAt s.node (nextIndex s dir).toNat).leaf = true) :
    walkStep m dir s = .next ({ s with cursor := s.root }.answered (responseWord m.opcode .ok)
      (emitted (nodeAt s.node (nextIndex s dir).toNat).sym)) :=
  if_pos h

theorem walkStep_of_internal {s : State} {dir : Bool} (m : Mnemonic)
    (h : (nodeAt s.node (nextIndex s dir).toNat).leaf = false) :
    walkStep m dir s = .next ({ s with cursor := nextIndex s dir }.answered (responseWord m.opcode .ok) 0) :=
  if_neg (by simp [h])

/-- `DATA[8] = 1` beside the symbol, written as a sum of bits (42_decoder R156). -/
theorem emitted_eq_or (sym : Symbol) : emitted sym = 0x00000100 ||| sym.setWidth 32 := by
  show (0#23 ++ 1#1 ++ sym : BitVec (23 + 1 + 8)) = BitVec.twoPow 32 8 ||| sym.setWidth 32
  refine BitVec.eq_of_getLsbD_eq fun i hi => ?_
  simp only [BitVec.getLsbD_append, BitVec.getLsbD_or, BitVec.getLsbD_twoPow, BitVec.getLsbD_setWidth]
  by_cases h8 : i < 8
  · simp [h8, show i < 32 by omega, show ¬ 8 = i by omega]
  · by_cases h9 : i = 8
    · simp [h9]
    · simp [h8, show ¬ i - 8 < 1 by omega, BitVec.getLsbD_of_ge sym i (by omega), Ne.symm h9]

/-- The child a raw bit leads to (42_decoder R155). -/
theorem nextIndex_digitOfBit (s : State) (bit : BitVec 1) :
    nextIndex s (digitOfBit bit) =
      if bit = 0 then (nodeAt s.node s.cursor.toNat).left else (nodeAt s.node s.cursor.toNat).right := by
  obtain rfl | rfl : bit = 0 ∨ bit = 1 := by revert bit; decide
  · rfl
  · rfl

/-- All commands that send one digit end in the same state, but for the opcode they echo (42_decoder R155). -/
theorem exists_exec_of_sends (s : State) (dir : Bool) :
    ∃ v e d, ∀ i, Sends dir i → exec i s = .next (State.reply v i.mnemonic.opcode e d) := by
  by_cases hb : s.phase = .built
  case neg => exact ⟨s, .nullTree, 0, fun i hi => exec_decoder_of_not_built rfl (hi.mnemonic_mem (by decide)) hb⟩
  by_cases ha : s.dstate = .active
  case neg => exact ⟨s, .sequence, 0, fun i hi => exec_decoder_of_not_active rfl (hi.mnemonic_mem (by decide)) hb ha⟩
  cases hroot : (nodeAt s.node s.root.toNat).leaf with
  | true =>
    exact ⟨s, .rootKind, 0, fun i hi => exec_digit_of_root_leaf rfl (hi.mnemonic_mem (by decide)) hb ha hroot⟩
  | false =>
    cases hleaf : (nodeAt s.node (nextIndex s dir).toNat).leaf with
    | true => exact ⟨_, _, _, fun i hi => (exec_of_sends hb ha rfl hi hroot).trans (walkStep_of_leaf _ hleaf)⟩
    | false => exact ⟨_, _, _, fun i hi => (exec_of_sends hb ha rfl hi hroot).trans (walkStep_of_internal _ hleaf)⟩

/-! The rules -/

/-- Settles O52: DECSTART has one guard, the tree. -/
theorem decstartFollowsRule : Obligations.DecstartFollowsRule := by
  intro s arg
  refine ⟨fun w => decode_eq_ok_iff_of_format_n (i := .decstart) rfl w arg, exec_decoder_of_not_built rfl (by decide),
    fun hb => ?_⟩
  rw [exec_decstart_of_built hb, BitVec.ofNat_toNat]

/-- Settles O53: the guards in order, then the character, then the kind of the child it leads to. -/
theorem decbitFollowsRule : Obligations.DecbitFollowsRule := by
  intro s ch arg
  refine ⟨fun w => decode_eq_decbit_iff w arg ch, exec_decoder_of_not_built (m := .decbit) rfl (by decide),
    exec_decoder_of_not_active (m := .decbit) rfl (by decide), exec_digit_of_root_leaf (m := .decbit) rfl (by decide),
    fun hb ha hroot =>
      ⟨fun h0 h1 => exec_decbit_of_no_digit hb ha hroot (digitOfChar_eq_none h0 h1), fun n hn => ?_⟩⟩
  obtain ⟨dir, hdir, rfl⟩ : ∃ dir, digitOfChar ch = some dir ∧ n = nextIndex s dir := by
    obtain ⟨rfl, rfl⟩ | ⟨rfl, rfl⟩ := hn
    · exact ⟨false, rfl, rfl⟩
    · exact ⟨true, rfl, rfl⟩
  rw [exec_of_sends (m := .decbit) hb ha rfl (.char ch hdir) hroot, ← emitted_eq_or]
  exact ⟨walkStep_of_leaf .decbit, walkStep_of_internal .decbit⟩

/-- Settles O54: the guards in order, then the kind of the child, and DECBIT beside it. -/
theorem decrawFollowsRule : Obligations.DecrawFollowsRule := by
  intro s bit arg
  have hsends : Sends (digitOfBit bit) (.decraw bit) := .raw bit rfl
  refine ⟨fun w => decode_eq_decraw_iff w arg bit, exec_decoder_of_not_built (m := .decraw) rfl (by decide),
    exec_decoder_of_not_active (m := .decraw) rfl (by decide), exec_digit_of_root_leaf (m := .decraw) rfl (by decide),
    fun hb ha hroot n hn => ?_, fun t u ht hu => ?_⟩
  · obtain rfl : n = nextIndex s (digitOfBit bit) := hn.trans (nextIndex_digitOfBit s bit).symm
    rw [exec_of_sends (m := .decraw) hb ha rfl hsends hroot, ← emitted_eq_or]
    exact ⟨walkStep_of_leaf .decraw, walkStep_of_internal .decraw⟩
  · obtain ⟨v, e, d, hexec⟩ := exists_exec_of_sends s (digitOfBit bit)
    cases (hexec _ hsends).symm.trans ht
    cases (hexec _ (sends_charOfBit bit)).symm.trans hu
    exact ⟨rfl, by simp only [State.reply_chan_data], by simp only [errOf_reply]⟩

/-- Settles O55: the guards in order, RootKind standing for an internal root. -/
theorem decrootFollowsRule : Obligations.DecrootFollowsRule := by
  intro s arg
  refine ⟨fun w => decode_eq_ok_iff_of_format_n (i := .decroot) rfl w arg, exec_decoder_of_not_built rfl (by decide),
    exec_decoder_of_not_active rfl (by decide), exec_decroot_of_root_internal, fun hb ha hroot => ?_⟩
  rw [exec_decroot_of_root_leaf hb ha hroot, emitted_eq_or]

/-- Settles O56: the guards in order, then the cursor at or away from the root. -/
theorem decendFollowsRule : Obligations.DecendFollowsRule := fun _ arg =>
  ⟨fun w => decode_eq_ok_iff_of_format_n (i := .decend) rfl w arg, exec_decoder_of_not_built rfl (by decide),
    exec_decoder_of_not_active rfl (by decide), exec_decend_of_ne_root, exec_decend_of_root⟩

end Sys2Proof.Machine
end

section
/-!
PROOFS. A stream error is fatal (42_decoder R159).
-/

namespace Sys2Proof.Machine

/-- In `FAILED` no stream is open for DECEND to close, so beside DECSTART the success of CLEAR alone leaves it. -/
theorem Success.dstate_eq_failed_iff {s u : State} {i : Instr} {d : Word} (h : Success s i u d)
    (hstart : i ≠ .decstart) (hf : s.dstate = .failed) : u.dstate = .failed ↔ i ≠ .clear := by
  have hend : i ≠ .decend := by
    rintro rfl
    cases h with
    | digitLeaf _ _ _ ha | digitInternal _ _ _ ha | decend _ ha => simp [hf] at ha
  rw [h.dstate_eq, if_neg hstart, if_neg hend, hf]
  split_ifs with hclear <;> simp [hclear]

/-- The errors keep `FAILED`, for the two that enter it need an open stream. -/
theorem Ended.dstate_eq_failed_iff {s t : State} {i : Instr} (h : Ended s i t) (hstart : i ≠ .decstart)
    (hf : s.dstate = .failed) : t.dstate = .failed ↔ i ≠ .clear := by
  cases h with
  | quiet e hq => simpa [hf] using hq.ne_clear
  | invalidBit _ _ _ ha | truncated _ _ ha => simp [hf] at ha
  | success u d hs => exact hs.dstate_eq_failed_iff hstart hf

/-- Settles O57: the codes by the transition list, the refusals by the guard on `DSTATE`, and DECSTART apart from the
commands that are read off how they can end. -/
theorem streamErrorsAreFatal : Obligations.StreamErrorsAreFatal := by
  refine ⟨fun i s t h herr => ?_, fun i s hb hf hi => ?_, fun i s t hb hf h => ?_⟩
  · rw [(exec_cases h).dstate_eq, if_pos herr]
  · exact ⟨_, exec_decoder_of_not_active rfl hi hb (by simp [hf]), responseWord_code _ _, rfl, rfl⟩
  · by_cases hstart : i = .decstart
    · subst hstart
      cases (exec_decstart_of_built hb).symm.trans h
      simp
    · rw [(exec_cases h).dstate_eq_failed_iff hstart hf, and_iff_right hstart]

end Sys2Proof.Machine
end

section
/-!
PROOFS. The round trip of 42_decoder R160: the digits of a symbol's code lead from the root to the symbol's leaf, where
the decoder emits it and is back at the root.
-/

namespace Sys2Proof.Machine

/-! Runs of commands -/

theorem runInstrs_cons {i : Instr} {is : List Instr} {s t u : State} {rs : List (Word × Word)}
    (h : exec i s = .next t) (hrun : runInstrs is t.takeResponse = some (rs, u)) :
    runInstrs (i :: is) s = some ((t.chan.rsp, t.chan.data) :: rs, u) := by
  rw [runInstrs, h]
  simp only [hrun]

theorem runInstrs_append {is js : List Instr} {s t u : State} {rs rs' : List (Word × Word)}
    (his : runInstrs is s = some (rs, t)) (hjs : runInstrs js t = some (rs', u)) :
    runInstrs (is ++ js) s = some (rs ++ rs', u) := by
  induction is generalizing s rs with
  | nil => cases his; exact hjs
  | cons i is ih =>
    rw [runInstrs] at his
    split at his
    · next v hv =>
      split at his
      · next qs w hw =>
        cases his
        exact runInstrs_cons hv (ih hw)
      · cases his
    · cases his
    · cases his

theorem emittedSymbol_emitted (rsp : Word) (sym : Symbol) : emittedSymbol (rsp, emitted sym) = some sym := by
  obtain ⟨hbit, hsym⟩ := emitted_symbol sym
  rw [emittedSymbol, if_pos hbit, hsym]

theorem emittedSymbol_zero (rsp : Word) : emittedSymbol (rsp, 0) = none :=
  if_neg (show ¬ (0 : Word).getLsbD 8 = true by decide)

/-! An open stream -/

/-- In `t` a stream over the tree under `root` in the arena `a` is open, its cursor at `n` (42_decoder R150). -/
structure StreamAt (a : Arena) (root n : NodeIndex) (t : State) : Prop where
  built : t.phase = .built
  active : t.dstate = .active
  node : t.node = a
  root : t.root = root
  cursor : t.cursor = n

theorem StreamAt.nextIndex_eq {a : Arena} {root n : NodeIndex} {t : State} (h : StreamAt a root n t) (d : Bool) :
    nextIndex t d = childOf (nodeAt a n.toNat) d := by
  rw [nextIndex, h.node, h.cursor]

theorem exists_exec_decstart {s : State} (hb : s.phase = .built) :
    ∃ t, exec .decstart s = .next t ∧ StreamAt s.node s.root s.root t.takeResponse :=
  ⟨_, exec_decstart_of_built hb, hb, rfl, rfl, rfl, rfl⟩

/-- From every state in which a stream stands at the root, the commands `is` answer with responses that meet `P`, and
leave the stream at the root. -/
def Streams (a : Arena) (root : NodeIndex) (is : List Instr) (P : List (Word × Word) → Prop) : Prop :=
  ∀ t, StreamAt a root root t → ∃ rs u, runInstrs is t = some (rs, u) ∧ P rs ∧ StreamAt a root root u

theorem Streams.nil {a : Arena} {root : NodeIndex} {P : List (Word × Word) → Prop} (h : P []) : Streams a root [] P :=
  fun t ht => ⟨[], t, rfl, h, ht⟩

theorem Streams.append {a : Arena} {root : NodeIndex} {is js : List Instr} {P Q R : List (Word × Word) → Prop}
    (his : Streams a root is P) (hjs : Streams a root js Q) (hR : ∀ rs rs', P rs → Q rs' → R (rs ++ rs')) :
    Streams a root (is ++ js) R := by
  intro t ht
  obtain ⟨rs, u, hrun, hP, hu⟩ := his t ht
  obtain ⟨rs', v, hrun', hQ, hv⟩ := hjs u hu
  exact ⟨rs ++ rs', v, runInstrs_append hrun hrun', hR rs rs' hP hQ, hv⟩

/-- Between DECSTART, which puts a stream at the root, and DECEND, which closes it there, the commands answer as they
would alone (42_decoder R151, R162). -/
theorem Streams.run {s : State} {is : List Instr} {P : List (Word × Word) → Prop}
    (h : Streams s.node s.root is P) (hb : s.phase = .built) :
    ∃ first mids u, runInstrs (.decstart :: (is ++ [.decend])) s = some (first :: (mids ++ [(0x14000000, 0)]), u) ∧
      P mids := by
  obtain ⟨t, hstart, ht⟩ := exists_exec_decstart hb
  obtain ⟨mids, u, hrun, hP, hu⟩ := h _ ht
  have hend := exec_decend_of_root hu.built hu.active (hu.cursor.trans hu.root.symm)
  exact ⟨_, mids, _, runInstrs_cons hstart (runInstrs_append hrun (runInstrs_cons hend rfl)), hP⟩

/-- No digit leads on from a leaf (00_scope R10). -/
theorem eq_nil_of_follow_leaf {a : Arena} {n l : NodeIndex} {ds : List Bool} (hn : (nodeAt a n.toNat).leaf = true)
    (h : follow a n ds = some l) : ds = [] := by
  cases ds with
  | nil => rfl
  | cons => simp [follow, hn] at h

/-! Two or more leaves -/

section
variable {a : Arena} {root n : NodeIndex} {t : State} (hroot : (nodeAt a root.toNat).leaf = false)
include hroot

theorem StreamAt.exec_digit (h : StreamAt a root n t) (d : Bool) :
    exec (.decbit (charOfDigit d)) t = walkStep .decbit d t :=
  exec_of_sends h.built h.active rfl (sends_charOfDigit d) (by rw [h.node, h.root, hroot])

/-- A digit that leads to a leaf emits its symbol and returns to the root (42_decoder R152). -/
theorem StreamAt.digit_leaf (h : StreamAt a root n t) {d : Bool}
    (hleaf : (nodeAt a (childOf (nodeAt a n.toNat) d).toNat).leaf = true) :
    ∃ u, exec (.decbit (charOfDigit d)) t = .next u ∧
      u.chan.data = emitted (nodeAt a (childOf (nodeAt a n.toNat) d).toNat).sym ∧
      StreamAt a root root u.takeResponse := by
  rw [← h.nextIndex_eq d, ← h.node] at hleaf ⊢
  exact ⟨_, (h.exec_digit hroot d).trans (walkStep_of_leaf _ hleaf), rfl, h.built, h.active, rfl, h.root, h.root⟩

/-- A digit that leads to an internal node moves the cursor there (42_decoder R152). -/
theorem StreamAt.digit_internal (h : StreamAt a root n t) {d : Bool}
    (hleaf : (nodeAt a (childOf (nodeAt a n.toNat) d).toNat).leaf = false) :
    ∃ u, exec (.decbit (charOfDigit d)) t = .next u ∧ u.chan.data = 0 ∧
      StreamAt a root (childOf (nodeAt a n.toNat) d) u.takeResponse := by
  rw [← h.nextIndex_eq d] at hleaf ⊢
  have hexec := (h.exec_digit hroot d).trans (walkStep_of_internal _ (h.node ▸ hleaf))
  exact ⟨_, hexec, rfl, h.built, h.active, h.node, h.root, rfl⟩

/-- The digits of a path down from the cursor emit the symbol of the leaf it ends at, and nothing before
(42_decoder R152). -/
theorem StreamAt.run_path (ds : List Bool) {l : NodeIndex} (h : StreamAt a root n t)
    (hn : (nodeAt a n.toNat).leaf = false) (hpath : follow a n ds = some l) (hl : (nodeAt a l.toNat).leaf = true) :
    ∃ rs u, runInstrs (sendChars ds) t = some (rs, u) ∧ rs.filterMap emittedSymbol = [(nodeAt a l.toNat).sym] ∧
      StreamAt a root root u := by
  induction ds generalizing n t with
  | nil =>
    cases hpath
    simp [hn] at hl
  | cons d ds ih =>
    rw [follow, hn, if_neg Bool.false_ne_true] at hpath
    cases hleaf : (nodeAt a (childOf (nodeAt a n.toNat) d).toNat).leaf with
    | true =>
      obtain rfl : ds = [] := eq_nil_of_follow_leaf hleaf hpath
      cases hpath
      obtain ⟨u, hexec, hdata, hu⟩ := h.digit_leaf hroot hleaf
      exact ⟨_, _, runInstrs_cons hexec rfl,
        List.filterMap_cons_some (by rw [hdata, emittedSymbol_emitted]), hu⟩
    | false =>
      obtain ⟨u, hexec, hdata, hu⟩ := h.digit_internal hroot hleaf
      obtain ⟨rs, v, hrun, hrs, hv⟩ := ih hu hleaf hpath
      exact ⟨_, v, runInstrs_cons hexec hrun,
        (List.filterMap_cons_none (by rw [hdata, emittedSymbol_zero])).trans hrs, hv⟩

end

/-- The concatenated codes of a list of symbols, each the path to a leaf of that symbol, emit the list
(42_decoder R160). -/
theorem streams_sendChars {a : Arena} {root : NodeIndex} (hroot : (nodeAt a root.toNat).leaf = false)
    (code : Symbol → List Bool) (syms : List Symbol)
    (hcode : ∀ sym ∈ syms, ∃ l, follow a root (code sym) = some l ∧ (nodeAt a l.toNat).leaf = true ∧
      (nodeAt a l.toNat).sym = sym) :
    Streams a root (sendChars (syms.flatMap code)) (fun rs => rs.filterMap emittedSymbol = syms) := by
  induction syms with
  | nil => exact .nil rfl
  | cons sym syms ih =>
    obtain ⟨⟨l, hpath, hleaf, hsym⟩, hrest⟩ := List.forall_mem_cons.1 hcode
    have hfirst : Streams a root (sendChars (code sym)) (fun rs => rs.filterMap emittedSymbol = [sym]) :=
      fun t ht => hsym ▸ ht.run_path hroot (code sym) hroot hpath hleaf
    rw [List.flatMap_cons, sendChars, List.map_append]
    refine hfirst.append (ih hrest) fun rs rs' hrs hrs' => ?_
    rw [List.filterMap_append, hrs, hrs', List.singleton_append]

/-! One leaf -/

/-- On a one-leaf tree DECROOT, sent once per symbol, emits the leaf's symbol each time (42_decoder R157, R160). -/
theorem streams_decroot {a : Arena} {root : NodeIndex} (hroot : (nodeAt a root.toNat).leaf = true) (syms : List Symbol)
    (hsyms : ∀ sym ∈ syms, (nodeAt a root.toNat).sym = sym) :
    Streams a root (List.replicate syms.length .decroot) (fun rs => rs.map emittedSymbol = syms.map some) := by
  induction syms with
  | nil => exact .nil rfl
  | cons sym syms ih =>
    obtain ⟨hsym, hrest⟩ := List.forall_mem_cons.1 hsyms
    have hone : Streams a root [.decroot] (fun rs => rs.map emittedSymbol = [some sym]) := by
      intro t ht
      have hexec := exec_decroot_of_root_leaf ht.built ht.active (by rw [ht.node, ht.root, hroot])
      rw [ht.node, ht.root, hsym] at hexec
      exact ⟨_, _, runInstrs_cons hexec rfl, congrArg (List.cons · []) (emittedSymbol_emitted _ sym),
        ⟨ht.built, ht.active, ht.node, ht.root, ht.cursor⟩⟩
    refine hone.append (ih hrest) fun rs rs' hrs hrs' => ?_
    rw [List.map_append, hrs, hrs', List.map_cons, List.singleton_append]

/-- Settles O58: each code is the path to its symbol's leaf, by the invariant of the table; where the root is a leaf
every path ends there. -/
theorem decodingInvertsEncoding : Obligations.DecodingInvertsEncoding := by
  intro s syms hinv htv hvalid
  have hb : s.phase = .built := hinv.table.built htv
  have hcode : ∀ sym ∈ syms, ∃ l, follow s.node s.root (codeOf s.table sym) = some l ∧
      (nodeAt s.node l.toNat).leaf = true ∧ (nodeAt s.node l.toNat).sym = sym := fun sym hmem => by
    obtain ⟨⟨l, hlt, hsym, hpath⟩, -⟩ := hinv.table.codes sym (hvalid sym hmem)
    exact ⟨l, hpath, (hinv.leaves.shape _ hlt).1, hsym⟩
  refine ⟨fun hroot => (streams_sendChars hroot _ syms hcode).run hb, fun hroot =>
    (streams_decroot hroot syms fun sym hmem => ?_).run hb⟩
  obtain ⟨l, hpath, -, hsym⟩ := hcode sym hmem
  rw [eq_nil_of_follow_leaf hroot hpath] at hpath
  cases hpath
  exact hsym

end Sys2Proof.Machine
end

section
/-!
PROOFS. What the whole machine keeps in BUILT (10_state R22, R40): who writes the tree and how `PHASE` moves.
-/

namespace Sys2Proof.Machine

/-- Of the commands that succeed in `BUILT`, CLEAR alone writes the tree. -/
theorem Success.sameTree {s u : State} {i : Instr} {d : Word} (h : Success s i u d) (hb : s.phase = .built)
    (hclear : i ≠ .clear) : SameTree s u := by
  cases h with
  | load _ _ hload | build hload => simp [hb] at hload
  | clear => exact absurd rfl hclear
  | _ => exact ⟨rfl, rfl, rfl, rfl, rfl, rfl, rfl⟩

theorem Ended.sameTree {s t : State} {i : Instr} (h : Ended s i t) (hb : s.phase = .built) (hclear : i ≠ .clear) :
    SameTree s t := by
  cases h with
  | quiet | invalidBit | truncated => exact ⟨rfl, rfl, rfl, rfl, rfl, rfl, rfl⟩
  | success u d hs => exact hs.sameTree hb hclear

/-- The two commands whose success sets `PHASE`; the success of any other keeps it. -/
theorem Success.phase_eq {s u : State} {i : Instr} {d : Word} (h : Success s i u d) :
    u.phase = if i = .build then .built else if i = .clear then .loading else s.phase := by
  cases h with
  | digitLeaf _ _ _ _ _ hi | digitInternal _ _ _ _ _ hi =>
    obtain ⟨_, rfl, _⟩ | ⟨_, rfl, _⟩ := hi <;> simp
  | _ => simp

/-- `PHASE` after a command, in either phase, read off how the command ended (10_state R22). -/
theorem Ended.phase_eq {s t : State} {i : Instr} (h : Ended s i t) :
    t.phase = if i = .build ∧ errOf t = 0 then .built else if i = .clear then .loading else s.phase := by
  cases h with
  | quiet e hq =>
    have hclear : i ≠ .clear := hq.ne_clear
    obtain ⟨hok, -⟩ := hq
    simp only [State.reply_phase, errOf_reply, errorNumber_eq_zero, hok, hclear, and_false, if_false]
  | invalidBit _ hi | truncated hi => simp [hi]
  | success u d hs => simpa [errorNumber] using hs.phase_eq

/-- Settles O27: the tree by how each command can end, both clauses on `PHASE` by its one equation. -/
theorem treeReadOnlyOnceBuilt : Obligations.TreeReadOnlyOnceBuilt := by
  intro i s t h
  have hend : Ended s i t := exec_cases h
  refine ⟨hend.sameTree, fun hload => ?_, fun hb => ?_⟩ <;> rw [hend.phase_eq]
  · simp [hload]
  · by_cases hclear : i = .clear
    · simp [hclear]
    · simp [hclear, hb]

end Sys2Proof.Machine
end

section
/-!
PROOFS. NOP and CLEAR (43_system R180, R181), and CLEAR beside `rst` (R182).
-/

namespace Sys2Proof.Machine

theorem exec_clear (s : State) : exec .clear s = .next (s.cleared.answered 0x01000000 0) := rfl

theorem step_of_rst {s : State} (h : s.pins.rst = true) : step s = .next s.popPins.hardReset := by
  simp [step, edgeAction, h]

/-- A cleared session, whatever it answers, is the reset one: no node is below `NNODE` and no code is valid
(43_system R182). -/
theorem archEq_cleared_hardReset (s u : State) (rsp data : Word) :
    ArchEq (s.cleared.answered rsp data) u.hardReset where
  phase := rfl
  nleaf := rfl
  nnode := rfl
  total := rfl
  root := rfl
  seen := rfl
  nodes i hi := absurd hi (Nat.not_lt_zero i)
  tv := rfl
  valid := rfl
  codes sym hsym := by simp at hsym
  dstate := rfl
  cursor := rfl

/-- Settles O32: format N has one word to a command, and NOP's answer is its whole effect. -/
theorem nopFollowsRule : Obligations.NopFollowsRule := fun _ arg =>
  ⟨fun w => decode_eq_ok_iff_of_format_n (i := .nop) rfl w arg, rfl⟩

/-- Settles O33: item by item, the flags by what a cleared vector reads. -/
theorem clearFollowsRule : Obligations.ClearFollowsRule := by
  intro s arg
  refine ⟨fun w => decode_eq_ok_iff_of_format_n (i := .clear) rfl w arg, _, exec_clear s, rfl, rfl, rfl, rfl, rfl, rfl,
    fun sym => ⟨flagAt_replicate false sym, flagAt_replicate false sym⟩, rfl, rfl, rfl, rfl, rfl, rfl, rfl, rfl, rfl,
    rfl, rfl, rfl⟩

/-- Settles O34: the answer to CLEAR changes the channel alone, and `rst` is the hard reset. -/
theorem clearEqualsHardReset : Obligations.ClearEqualsHardReset := by
  intro s t r hclear hrst hstep
  cases (exec_clear s).symm.trans hclear
  cases (step_of_rst hrst).symm.trans hstep
  exact ⟨archEq_cleared_hardReset s s.popPins _ _, rfl, rfl, rfl⟩

end Sys2Proof.Machine
end

section
/-!
PROOFS. INFO, NODEFREQ and NODELINK (43_system R183, R184, R185): the words that are one, and the fields they answer.
-/

namespace Sys2Proof

/-- Where the bits above the lowest `w` are reserved and 0, those `w` bits are the operand exactly if the whole field is
(30_encoding R83, R88). -/
theorem extractLsb'_eq_iff_eq_zero_append {n w : Nat} {f : BitVec (n + w)}
    (h : f &&& (BitVec.allOnes n ++ 0#w) = 0) (x : BitVec w) : f.extractLsb' 0 w = x ↔ f = 0#n ++ x := by
  constructor
  · rintro rfl
    have hhigh := congrArg (BitVec.extractLsb' w n) h
    rw [BitVec.extractLsb'_and, BitVec.extractLsb'_append_eq_left, BitVec.and_allOnes] at hhigh
    calc f = f.extractLsb' w n ++ f.extractLsb' 0 w := BitVec.extractLsb'_append_extractLsb'.symm
      _ = 0#n ++ f.extractLsb' 0 w := congrArg (· ++ f.extractLsb' 0 w) (hhigh.trans BitVec.extractLsb'_zero)
  · rintro rfl
    exact BitVec.extractLsb'_append_eq_right

theorem idxField_eq_iff {w : Word} (hres : operandField w &&& reservedMask .x = 0) (idx : NodeIndex) :
    idxField w = idx ↔ operandField w = 0#15 ++ idx := by
  obtain ⟨-, -, hidx, -, -⟩ := fields_of_operandField w
  have hmask : reservedMask .x = BitVec.allOnes 15 ++ 0#9 := by decide
  rw [hidx]
  exact extractLsb'_eq_iff_eq_zero_append (n := 15) (hmask ▸ hres) idx

theorem selField_eq_iff {w : Word} (hres : operandField w &&& reservedMask .q = 0) (sel : BitVec 4) :
    selField w = sel ↔ operandField w = 0#20 ++ sel := by
  obtain ⟨-, -, -, hsel, -⟩ := fields_of_operandField w
  have hmask : reservedMask .q = BitVec.allOnes 20 ++ 0#4 := by decide
  rw [hsel]
  exact extractLsb'_eq_iff_eq_zero_append (n := 20) (hmask ▸ hres) sel

theorem decode_eq_nodefreq_iff (w arg : Word) (idx : NodeIndex) :
    decode w arg = .ok (.nodefreq idx) ↔ w = (0x07#8 ++ (0#15 ++ idx) : BitVec (8 + (15 + 9))) :=
  decode_eq_ok_iff (i := .nodefreq idx) (Laws.EncodingFields.idx_fits idx) fun _ hres =>
    Instr.nodefreq.injEq .. ▸ idxField_eq_iff hres idx

theorem decode_eq_nodelink_iff (w arg : Word) (idx : NodeIndex) :
    decode w arg = .ok (.nodelink idx) ↔ w = (0x08#8 ++ (0#15 ++ idx) : BitVec (8 + (15 + 9))) :=
  decode_eq_ok_iff (i := .nodelink idx) (Laws.EncodingFields.idx_fits idx) fun _ hres =>
    Instr.nodelink.injEq .. ▸ idxField_eq_iff hres idx

theorem decode_eq_info_iff (w arg : Word) (sel : BitVec 4) :
    decode w arg = .ok (.info sel) ↔ w = (0x09#8 ++ (0#20 ++ sel) : BitVec (8 + (20 + 4))) :=
  decode_eq_ok_iff (i := .info sel) (Laws.EncodingFields.sel_fits sel) fun _ hres =>
    Instr.info.injEq .. ▸ selField_eq_iff hres sel

end Sys2Proof

namespace Sys2Proof.Machine

theorem validNode_of_le {idx : NodeIndex} {s : State} (h : s.nnode.toNat ≤ idx.toNat) : validNode idx s = none :=
  if_pos h

theorem validNode_of_lt {idx : NodeIndex} {s : State} (h : idx.toNat < s.nnode.toNat) :
    validNode idx s = some (nodeAt s.node idx.toNat) :=
  if_neg (Nat.not_le.2 h)

/-- Settles O36: NODEFREQ answers by the node its index reads. -/
theorem nodefreqFollowsRule : Obligations.NodefreqFollowsRule := by
  intro s idx arg
  refine ⟨fun w => decode_eq_nodefreq_iff w arg idx, fun h => ?_, fun h => ?_⟩ <;> rw [exec, execNodefreq]
  · rw [validNode_of_le h]
    rfl
  · rw [validNode_of_lt h]
    rfl

/-- The layout of a node's links (43_system R185). -/
theorem linkWord_fields (n : Node) :
    (linkWord n).extractLsb' 0 9 = n.left ∧ (linkWord n).extractLsb' 9 9 = n.right ∧
      (linkWord n).extractLsb' 18 8 = n.sym ∧ (linkWord n).getLsbD 26 = n.leaf ∧ (linkWord n).extractLsb' 27 5 = 0 := by
  rw [linkWord]
  refine ⟨BitVec.extractLsb'_append_eq_right, (BitVec.extractLsb'_append_eq_of_le (by decide)).trans
    BitVec.extractLsb'_append_eq_right, ?_, ?_, ?_⟩
  · exact (BitVec.extractLsb'_append_eq_of_le (by decide)).trans
      ((BitVec.extractLsb'_append_eq_of_le (by decide)).trans BitVec.extractLsb'_append_eq_right)
  · show (0#5 ++ BitVec.ofBool n.leaf ++ n.sym ++ n.right ++ n.left : BitVec (5 + 1 + 8 + 9 + 9)).getLsbD 26 = n.leaf
    simp only [BitVec.getLsbD_append]
    simp
  · exact (BitVec.extractLsb'_append_eq_of_le (by decide)).trans
      ((BitVec.extractLsb'_append_eq_of_le (by decide)).trans
        ((BitVec.extractLsb'_append_eq_of_le (by decide)).trans BitVec.extractLsb'_append_eq_left))

/-- Settles O37: NODELINK answers by the node its index reads, whose links fill one word. -/
theorem nodelinkFollowsRule : Obligations.NodelinkFollowsRule := by
  intro s idx arg
  refine ⟨fun w => decode_eq_nodelink_iff w arg idx, fun h => ?_, fun h => ?_⟩ <;> rw [exec, execNodelink]
  · rw [validNode_of_le h]
    rfl
  · rw [validNode_of_lt h]
    exact ⟨_, rfl, linkWord_fields _⟩

/-- The layout of `STATUS` (43_system R183). -/
theorem statusWord_fields (s : State) :
    (statusWord s).getLsbD 0 = decide (s.phase = .built) ∧ (statusWord s).getLsbD 1 = s.tv ∧
      (statusWord s).extractLsb' 2 2 = dstateBits s.dstate ∧ (statusWord s).extractLsb' 4 28 = 0 := by
  rw [statusWord]
  refine ⟨?_, ?_, ?_, ?_⟩
  · show (0#28 ++ dstateBits s.dstate ++ tvBit s.tv ++ phaseBit s.phase : BitVec (28 + 2 + 1 + 1)).getLsbD 0 = _
    rw [BitVec.getLsbD_append, if_pos Nat.one_pos]
    cases s.phase <;> decide
  · show (0#28 ++ dstateBits s.dstate ++ tvBit s.tv ++ phaseBit s.phase : BitVec (28 + 2 + 1 + 1)).getLsbD 1 = _
    simp only [BitVec.getLsbD_append]
    simp [tvBit]
  · exact (BitVec.extractLsb'_append_eq_of_le (by decide)).trans
      ((BitVec.extractLsb'_append_eq_of_le (by decide)).trans BitVec.extractLsb'_append_eq_right)
  · exact (BitVec.extractLsb'_append_eq_of_le (by decide)).trans
      ((BitVec.extractLsb'_append_eq_of_le (by decide)).trans BitVec.extractLsb'_append_eq_left)

theorem infoRegister_of_ge {sel : BitVec 4} (h : 6 ≤ sel.toNat) (s : State) : infoRegister sel s = none := by
  rw [infoRegister]
  split
  case h_7 => rfl
  all_goals omega

theorem exec_info_of_register {sel : BitVec 4} {s : State} {v : Word} (h : infoRegister sel s = some v) :
    exec (.info sel) s = .next (s.answered 0x09000000 v) := by
  rw [exec, execInfo, h]
  rfl

/-- A register narrower than `DATA` is read zero-extended (43_system R183). -/
theorem exec_info_of_narrow {n : Nat} {x : BitVec n} {sel : BitVec 4} {s : State}
    (h : infoRegister sel s = some (x.setWidth 32)) :
    exec (.info sel) s = .next (s.answered 0x09000000 (BitVec.ofNat 32 x.toNat)) := by
  rw [BitVec.ofNat_toNat]
  exact exec_info_of_register h

/-- Settles O35: selector by selector, INFO answers by the register the selector reads. -/
theorem infoFollowsRule : Obligations.InfoFollowsRule := by
  intro s sel arg
  refine ⟨fun w => decode_eq_info_iff w arg sel, fun h => ?_, fun h => exec_info_of_narrow (h ▸ rfl),
    fun h => exec_info_of_narrow (h ▸ rfl), fun h => exec_info_of_narrow (h ▸ rfl),
    fun h => exec_info_of_register (h ▸ rfl), fun h => exec_info_of_narrow (h ▸ rfl), fun h => ?_⟩
  · exact ⟨statusWord s, exec_info_of_register (h ▸ rfl), statusWord_fields s⟩
  · rw [exec, execInfo, infoRegister_of_ge h]
    rfl

end Sys2Proof.Machine
end

section
/-!
PROOFS. An error changes no state but `DSTATE`, and that by codes 3 and 4 alone (60_exceptions R203).
-/

namespace Sys2Proof.Machine

/-- A response is driven on the channel, which is no part of the block (30_encoding R81). -/
theorem sameBlock_reply (s : State) (opc : BitVec 8) (e : ErrorCode) (d : Word) : SameBlock s (s.reply opc e d) := rfl

theorem Quiet.errorNumber_ne_three {m : Mnemonic} {e : ErrorCode} (h : Quiet m e) : errorNumber e ≠ 3 := by
  obtain ⟨_, hbit, _, _⟩ := h
  exact mt (errorNumber_eq_three e).1 hbit

theorem Quiet.errorNumber_ne_four {m : Mnemonic} {e : ErrorCode} (h : Quiet m e) : errorNumber e ≠ 4 := by
  obtain ⟨_, _, htrunc, _⟩ := h
  exact mt (errorNumber_eq_four e).1 htrunc

theorem Ended.data_eq_zero_of_error {s t : State} {i : Instr} (h : Ended s i t) (herr : errOf t ≠ 0) :
    t.chan.data = 0 := by
  cases h with
  | quiet | invalidBit | truncated => rfl
  | success u d => exact absurd (errOf_reply u _ .ok d) herr

/-- The frame of an error: the block as it was, or with `DSTATE` set to `FAILED` where the code is 3 or 4. -/
theorem Ended.sameBlock_of_error {s t : State} {i : Instr} (h : Ended s i t) (herr : errOf t ≠ 0) :
    if errOf t = 3 ∨ errOf t = 4 then SameBlock { s with dstate := .failed } t else SameBlock s t := by
  cases h with
  | quiet e hq =>
    rw [if_neg (not_or.2 ⟨errOf_reply .. ▸ hq.errorNumber_ne_three, errOf_reply .. ▸ hq.errorNumber_ne_four⟩)]
    exact sameBlock_reply ..
  | invalidBit =>
    rw [if_pos (.inl (errOf_reply ..))]
    exact sameBlock_reply ..
  | truncated =>
    rw [if_pos (.inr (errOf_reply ..))]
    exact sameBlock_reply ..
  | success u d => exact absurd (errOf_reply u _ .ok d) herr

theorem Ended.mnemonic_eq_decbit {s t : State} {i : Instr} (h : Ended s i t) (hcode : errOf t = 3) :
    i.mnemonic = .decbit := by
  cases h with
  | invalidBit _ hi => exact hi ▸ rfl
  | quiet _ hq => exact absurd (errOf_reply .. ▸ hcode) hq.errorNumber_ne_three
  | truncated | success => exact absurd (errOf_reply .. ▸ hcode) (by decide)

theorem Ended.mnemonic_eq_decend {s t : State} {i : Instr} (h : Ended s i t) (hcode : errOf t = 4) :
    i.mnemonic = .decend := by
  cases h with
  | truncated hi => exact hi ▸ rfl
  | quiet _ hq => exact absurd (errOf_reply .. ▸ hcode) hq.errorNumber_ne_four
  | invalidBit | success => exact absurd (errOf_reply .. ▸ hcode) (by decide)

/-- A word that is no command is answered with `IllegalCommand` (30_encoding R88). -/
theorem runCommand_of_not_fetched {s : State} (h : ∀ i, s.fetched ≠ .ok i) :
    runCommand s = .next (s.reply (opcodeField s.chan.cmd) .illegalCommand 0) := by
  obtain ⟨i, hi, -⟩ | ⟨-, -, hrun⟩ := runCommand_cases s
  · exact absurd hi (h i)
  · exact hrun

/-- Settles O24: the commands by how each can end, the other words by their one answer. -/
theorem errorsChangeNothing : Obligations.ErrorsChangeNothing := by
  refine ⟨fun i s t h herr => ?_, fun s hs => ⟨_, runCommand_of_not_fetched hs, ?_, rfl, sameBlock_reply ..⟩⟩
  · have hend : Ended s i t := exec_cases h
    exact ⟨hend.data_eq_zero_of_error herr, hend.sameBlock_of_error herr, hend.mnemonic_eq_decbit,
      hend.mnemonic_eq_decend⟩
  · rw [errOf_reply]
    decide

end Sys2Proof.Machine
end

section
/-!
PROOFS. `rst` at an edge (70_reset_and_hazards R230, R232), and the idle block after it.
-/

namespace Sys2Proof.Machine

/-! The ports -/

/-- No port offers anything while `rst` is 1 (70_reset_and_hazards R230). -/
theorem ports_of_rst {p : Pins} (s : State) (h : p.rst = true) :
    ports p s = { cmdReady := false, rspValid := false, response := none } := by
  simp [ports, h]

theorem takenResponse_of_rst {s : State} (h : s.pins.rst = true) : s.takenResponse = none := by
  simp [State.takenResponse, ports_of_rst s h]

theorem takenResponse_of_not_held {s : State} (h : s.chan.rspv = false) : s.takenResponse = none := by
  simp [State.takenResponse, ports, h]

/-! The edges of an idle block -/

/-- An idle block accepts the command offered to it (30_encoding R81). -/
theorem step_of_offered {s : State} (hbusy : s.chan.busy = false) (hrspv : s.chan.rspv = false)
    (hrst : s.pins.rst = false) (hvalid : s.pins.cmdValid = true) :
    step s = .next (s.popPins.accept s.pins.cmdWord s.pins.cmdArg) := by
  simp [step, edgeAction, hbusy, hrspv, hrst, hvalid]

/-- An idle block offered no command is idle after the edge, whether `rst` is 1 there or not (60_exceptions R215,
70_reset_and_hazards R230). -/
theorem exists_step_idle {s : State} (hbusy : s.chan.busy = false) (hrspv : s.chan.rspv = false)
    (hvalid : s.pins.cmdValid = false) :
    ∃ t, step s = .next t ∧ t.chan.busy = false ∧ t.chan.rspv = false ∧ t.chan.host = s.chan.host.tail := by
  cases hrst : s.pins.rst with
  | true => exact ⟨_, step_of_rst hrst, rfl, rfl, rfl⟩
  | false => exact ⟨s.popPins, by simp [step, edgeAction, hbusy, hrspv, hrst, hvalid], hbusy, hrspv, rfl⟩

/-- The pins of the next edge are the first the host drives, or silent ones. -/
theorem cmdValid_pins_eq_false {s : State} {n : Nat} (h : ∀ p ∈ s.chan.host.take (n + 1), p.cmdValid = false) :
    s.pins.cmdValid = false := by
  cases hhost : s.chan.host with
  | nil => rw [State.pins, hhost, List.headD_nil, quietPins]
  | cons p ps =>
    rw [State.pins, hhost, List.headD_cons]
    exact h p (by simp [hhost])

/-- An idle block responds to nothing while no command is offered (60_exceptions R215). -/
theorem observe_idle (n : Nat) {s : State} (hbusy : s.chan.busy = false) (hrspv : s.chan.rspv = false)
    (hvalid : ∀ p ∈ s.chan.host.take n, p.cmdValid = false) : observe n s = [] := by
  induction n generalizing s with
  | zero => rfl
  | succ n ih =>
    obtain ⟨t, hstep, hbusy', hrspv', hhost⟩ := exists_step_idle hbusy hrspv (cmdValid_pins_eq_false hvalid)
    have hrest : ∀ p ∈ t.chan.host.take n, p.cmdValid = false := by
      rw [hhost, ← Nat.add_sub_cancel n 1, ← List.tail_take_eq_take_tail]
      exact fun p hp => hvalid p (List.mem_of_mem_tail hp)
    rw [observe, takenResponse_of_not_held hrspv, hstep]
    exact ih hbusy' hrspv' hrest

/-! The rules -/

/-- A reset block has the architectural state of reset, whatever it was doing (70_reset_and_hazards R230). -/
theorem archEq_hardReset_reset (s : State) : ArchEq s.hardReset State.reset :=
  ⟨rfl, rfl, rfl, rfl, rfl, rfl, fun _ _ => rfl, rfl, rfl, fun _ _ => ⟨rfl, rfl⟩, rfl, rfl⟩

/-- Settles O12: `rst` closes the ports and leaves an idle block, which has nothing to respond to. -/
theorem resetCutsTheCommandInFlight : Obligations.ResetCutsTheCommandInFlight := by
  intro s hrst _
  exact ⟨takenResponse_of_rst hrst, _, step_of_rst hrst, archEq_hardReset_reset _, rfl, rfl, rfl, rfl,
    fun n => observe_idle n rfl rfl⟩

/-- Settles O11: the hard reset item by item, and the idle block it leaves accepts a command. -/
theorem resetDominatesEveryEdge : Obligations.ResetDominatesEveryEdge := by
  intro s hrst
  rw [ports_of_rst s hrst]
  exact ⟨rfl, rfl, _, step_of_rst hrst, rfl, rfl, rfl, rfl, rfl, flagAt_replicate false, rfl, flagAt_replicate false,
    rfl, rfl, rfl, rfl, rfl, rfl, fun hlow hvalid => ⟨_, step_of_offered rfl rfl hlow hvalid, rfl, rfl, rfl⟩⟩

end Sys2Proof.Machine
end

section
/-!
PROOFS. The empty session (70_reset_and_hazards R231): every command in a state that is architecturally that of reset.
-/

namespace Sys2Proof.Machine

/-- The registers are architectural state (10_state R39, R42). -/
theorem ArchEq.infoRegister_eq {s t : State} (h : ArchEq s t) (sel : BitVec 4) :
    infoRegister sel s = infoRegister sel t := by
  simp only [infoRegister, statusWord, h.phase, h.tv, h.dstate, h.nleaf, h.nnode, h.root, h.total, h.cursor]

theorem infoRegister_reset {sel : BitVec 4} (hsel : sel.toNat ≤ 5) : infoRegister sel State.reset = some 0 := by
  revert sel
  decide

theorem exec_build_of_no_leaves {s : State} (hload : s.phase = .loading) (hleaf : s.nleaf = 0) :
    exec .build s = .next (s.answered 0x03000001 0) :=
  (if_neg (not_not.2 hload)).trans (if_pos hleaf)

/-- LOAD of a new symbol, where nothing stands against it (40_builder R101). -/
theorem exec_load_of_fits {s : State} {sym : Symbol} {count : Freq} (hload : s.phase = .loading) (hcount : count ≠ 0)
    (hseen : flagAt s.seen sym = false) (hfit : s.total.toNat + count.toNat ≤ 0xFFFFFFFF) :
    exec (.load sym count) s = .next ((s.addLeaf sym count).answered 0x02000000 (s.nleaf.setWidth 32)) := by
  rw [exec_load, if_neg (not_not.2 hload), if_neg hcount, hseen, if_neg Bool.false_ne_true, if_neg (Nat.not_lt.2 hfit)]

/-- Any count fits the total of an empty session, and no symbol is loaded in it. -/
theorem exec_load_of_archEq_reset {s : State} (h : ArchEq s State.reset) (sym : Symbol) {count : Freq}
    (hcount : count ≠ 0) :
    exec (.load sym count) s = .next ((s.addLeaf sym count).answered 0x02000000 (s.nleaf.setWidth 32)) := by
  have hseen : flagAt s.seen sym = false := h.seen ▸ flagAt_replicate false sym
  have htotal : s.total.toNat = 0 := congrArg BitVec.toNat h.total
  exact exec_load_of_fits h.phase hcount hseen (by omega)

/-- Settles O60: each command's rule at the values of reset, where there is no node, no code, no tree and no leaf. -/
theorem emptySessionAfterReset : Obligations.EmptySessionAfterReset := by
  intro s h
  have hnode : ∀ idx : NodeIndex, s.nnode.toNat ≤ idx.toNat := fun idx => h.nnode ▸ Nat.zero_le _
  have hbuilt : s.phase ≠ .built := h.phase ▸ nofun
  refine ⟨fun sel hsel => exec_info_of_register ((h.infoRegister_eq sel).trans (infoRegister_reset hsel)),
    fun sym => ?_, fun sym k => ?_, fun idx => ⟨?_, ?_⟩, exec_gencodes_of_not_built hbuilt,
    exec_decoder_of_not_built rfl (by decide) hbuilt,
    fun ch => exec_decoder_of_not_built (m := .decbit) rfl (by decide) hbuilt,
    fun bit => exec_decoder_of_not_built (m := .decraw) rfl (by decide) hbuilt,
    exec_decoder_of_not_built rfl (by decide) hbuilt, exec_decoder_of_not_built rfl (by decide) hbuilt,
    exec_build_of_no_leaves h.phase h.nleaf,
    fun sym count hcount => ⟨_, exec_load_of_archEq_reset h sym hcount, rfl, congrArg (· + 1) h.nleaf⟩⟩
  · obtain ⟨-, hunknown, -⟩ := lookupFollowsRule s sym 0
    exact hunknown (.inl h.tv)
  · obtain ⟨-, hunknown, -⟩ := readcodeFollowsRule s sym k 0
    exact hunknown (.inl h.tv)
  · obtain ⟨-, hrange, -⟩ := nodefreqFollowsRule s idx 0
    exact hrange (hnode idx)
  · obtain ⟨-, hrange, -⟩ := nodelinkFollowsRule s idx 0
    exact hrange (hnode idx)

end Sys2Proof.Machine
end

section
/-!
PROOFS. The merge loop of BUILD (40_builder R110): what one round takes and makes, and the induction over the rounds.
-/

namespace Sys2Proof.Machine

/-- The arena's indices fit `IDX_W = 9` bits (00_scope R6). -/
theorem toNat_ofNat_index {i : Nat} (h : i < 512) : (BitVec.ofNat 9 i).toNat = i := Nat.mod_eq_of_lt h

theorem one_le_toNat_of_ne_zero {n : Nat} {x : BitVec n} (h : x ≠ 0) : 1 ≤ x.toNat :=
  Nat.one_le_iff_ne_zero.2 fun h0 => h (BitVec.eq_of_toNat_eq h0)

/-- A round of merging over `n` leaves: of the working set `w`, members of the arena below `k`, it takes the least node
`i` and the next least `j`, and leaves `rest` (40_builder R110, R113). -/
structure Round (n : Nat) (a : Arena) (k : Nat) (w : List NodeIndex) (i j : NodeIndex) (rest : List NodeIndex) :
    Prop where
  perm : w.Perm (i :: j :: rest)
  nodup : w.Nodup
  made : ∀ x ∈ w, x.toNat < k
  least : nodeKey a i < nodeKey a j
  second : ∀ y ∈ rest, nodeKey a j < nodeKey a y
  leaves_le : n ≤ k
  room : k < 511

/-- The arena after the round: node `k` is the parent of the two (40_builder R110). -/
def merged (a : Arena) (k : Nat) (i j : NodeIndex) : Arena := setNode a k (internalNode a i j)

/-- The least member has a lesser key than every other. -/
theorem nodeKey_leastOf_lt {a : Arena} {m y : NodeIndex} {w : List NodeIndex} (hnodup : (m :: w).Nodup)
    (hy : y ∈ (m :: w).erase (leastOf a m w)) : nodeKey a (leastOf a m w) < nodeKey a y := by
  obtain ⟨hne, hmem⟩ := hnodup.mem_erase_iff.1 hy
  exact lt_of_le_of_ne (nodeKey_leastOf_le a m w y hmem) ((nodeKey_injective a).ne hne.symm)

/-- The loop goes on with a round while the working set has two members (40_builder R110). -/
theorem Builder.AtSet.exists_round {n : Nat} {b : Builder} {x y : NodeIndex} {tail : List NodeIndex}
    (h : b.AtSet n (x :: y :: tail)) :
    ∃ i j rest, Round n b.arena b.next (x :: y :: tail) i j rest ∧
      (Machine.mergeOnce b).arena = merged b.arena b.next i j ∧
      (Machine.mergeOnce b).AtSet n (rest ++ [BitVec.ofNat 9 b.next]) := by
  have hmem : leastOf b.arena x (y :: tail) ∈ x :: y :: tail := leastOf_mem b.arena x (y :: tail)
  obtain ⟨z, zs, hothers⟩ := List.exists_cons_of_length_eq_add_one (n := tail.length)
    (by simpa using List.length_erase_of_mem hmem)
  obtain ⟨harena, hset⟩ := h.mergeOnce hothers
  obtain ⟨holds, made, count, leaves_le, capacity⟩ := h
  have hzs : (z :: zs).Nodup := hothers ▸ holds.nodup.erase _
  refine ⟨_, _, _, ⟨?_, holds.nodup, made, ?_, fun _ => nodeKey_leastOf_lt hzs, leaves_le, ?_⟩, harena, hset⟩
  · refine (List.perm_cons_erase hmem).trans (List.Perm.cons _ ?_)
    rw [hothers]
    exact List.perm_cons_erase (leastOf_mem b.arena z zs)
  · exact nodeKey_leastOf_lt holds.nodup (hothers ▸ leastOf_mem b.arena z zs)
  · simp only [List.length_cons] at count
    omega

/-- What every round keeps of the arena, the next index and the working set holds when one member is left. -/
theorem mergeLoop_induction {n : Nat} {P : Arena → Nat → List NodeIndex → Prop}
    (hround : ∀ a k w i j rest, Round n a k w i j rest → P a k w →
      P (merged a k i j) (k + 1) (rest ++ [BitVec.ofNat 9 k]))
    (fuel : Nat) (b : Builder) (w : List NodeIndex) (h : b.AtSet n w) (hw : w ≠ []) (hfuel : w.length ≤ fuel + 1)
    (hP : P b.arena b.next w) :
    ∃ r, (mergeLoop fuel b).AtSet n [r] ∧ P (mergeLoop fuel b).arena (mergeLoop fuel b).next [r] := by
  induction fuel generalizing b w with
  | zero =>
    obtain ⟨r, rfl⟩ := List.length_eq_one_iff.1 (le_antisymm hfuel (List.length_pos_iff.2 hw))
    exact ⟨r, h, hP⟩
  | succ fuel ih =>
    have hsize := h.holds.size_eq
    match w with
    | [] => exact absurd rfl hw
    | [r] =>
      have hstop : mergeLoop (fuel + 1) b = b := if_neg (by rw [hsize]; simp)
      rw [hstop]
      exact ⟨r, h, hP⟩
    | x :: y :: tail =>
      have hgo : mergeLoop (fuel + 1) b = mergeLoop fuel (mergeOnce b) := if_pos (by rw [hsize]; simp)
      obtain ⟨i, j, rest, hr, harena, hset⟩ := h.exists_round
      have hlen := hr.perm.length_eq
      rw [hgo]
      refine ih (mergeOnce b) _ hset (by simp) (by simp at hlen hfuel ⊢; omega) ?_
      rw [harena]
      exact hround _ _ _ _ _ _ hr hP

/-- The leaves are at the first working set (40_builder R110, R113). -/
theorem atSet_leaves (s : State) (h2 : s.nleaf.toNat ≤ 256) :
    Builder.AtSet s.nleaf.toNat ⟨s.node, fillHeap s.node s.nleaf.toNat s.queue, s.nleaf.toNat⟩
      ((List.range s.nleaf.toNat).map (BitVec.ofNat 9)) := by
  refine ⟨holds_fillHeap _ _ _ h2, fun i hi => ?_, by simp; omega, le_rfl, h2⟩
  obtain ⟨j, hj, rfl⟩ := List.mem_map.1 hi
  exact (Nat.mod_le _ _).trans_lt (List.mem_range.1 hj)

/-- What BUILD extracts as `ROOT` is the member left at the end, and what the rounds keep holds there. -/
theorem buildTree_induction {P : Arena → Nat → List NodeIndex → Prop} {s : State} (h1 : 1 ≤ s.nleaf.toNat)
    (h2 : s.nleaf.toNat ≤ 256) (hstart : P s.node s.nleaf.toNat ((List.range s.nleaf.toNat).map (BitVec.ofNat 9)))
    (hround : ∀ a k w i j rest, Round s.nleaf.toNat a k w i j rest → P a k w →
      P (merged a k i j) (k + 1) (rest ++ [BitVec.ofNat 9 k])) :
    P s.buildTree.node s.buildTree.nnode.toNat [s.buildTree.root] ∧
      s.buildTree.nnode.toNat = 2 * s.nleaf.toNat - 1 ∧ s.buildTree.queue.size = 0 := by
  obtain ⟨r, hend, hP⟩ := mergeLoop_induction hround s.nleaf.toNat
    ⟨s.node, fillHeap s.node s.nleaf.toNat s.queue, s.nleaf.toNat⟩ _ (atSet_leaves s h2) (by simp; omega) (by simp)
    hstart
  change (mergeAll s).AtSet s.nleaf.toNat [r] at hend
  have hcount : (mergeAll s).next + 1 = 2 * s.nleaf.toNat := hend.count
  have hnnode : s.buildTree.nnode.toNat = (mergeAll s).next := toNat_ofNat_index (by omega)
  obtain ⟨hroot, hqueue⟩ := hend.holds.extract (by simp)
  have hsize : (heapExtract (mergeAll s).arena (mergeAll s).queue).2.size.toNat = 0 := by simpa using hqueue.size_eq
  refine ⟨?_, by omega, BitVec.eq_of_toNat_eq hsize⟩
  rw [hnnode, show s.buildTree.root = r from hroot]
  exact hP

/-- BUILD makes `NLEAF - 1` nodes beside the leaves and empties its heap (40_builder R106, R111). -/
theorem buildTree_counts {s : State} (h1 : 1 ≤ s.nleaf.toNat) (h2 : s.nleaf.toNat ≤ 256) :
    s.buildTree.nnode.toNat = 2 * s.nleaf.toNat - 1 ∧ s.buildTree.queue.size = 0 :=
  (buildTree_induction (P := fun _ _ _ => True) h1 h2 trivial fun _ _ _ _ _ _ _ _ => trivial).2

end Sys2Proof.Machine
end

section
/-!
PROOFS. BUILD (40_builder R110, R111, R112): its frame in every arena, and the strict binary tree it makes over loaded
leaves.
-/

namespace Sys2Proof.Machine

/-! What one round writes -/

namespace Round

variable {n k : Nat} {a : Arena} {w rest : List NodeIndex} {i j : NodeIndex} (h : Round n a k w i j rest)

theorem nodeAt_merged_of_ne {p : Nat} (hp : p ≠ k) : nodeAt (merged a k i j) p = nodeAt a p :=
  nodeAt_setNode_of_ne _ _ _ _ hp.symm

theorem isChild_merged_of_ne {p : Nat} (hp : p ≠ k) (c : Nat) : IsChild (merged a k i j) p c ↔ IsChild a p c := by
  rw [IsChild, IsChild, nodeAt_merged_of_ne hp]

theorem nodeKey_merged_of_ne {x : NodeIndex} (hx : x.toNat ≠ k) : nodeKey (merged a k i j) x = nodeKey a x := by
  rw [nodeKey, nodeKey, nodeAt_merged_of_ne hx]

include h

theorem nodeAt_merged_self : nodeAt (merged a k i j) k = internalNode a i j := nodeAt_setNode_self _ _ _ h.room

theorem isChild_merged_self (c : Nat) : IsChild (merged a k i j) k c ↔ i.toNat = c ∨ j.toNat = c := by
  rw [IsChild, h.nodeAt_merged_self]
  rfl

theorem toNat_new : (BitVec.ofNat 9 k).toNat = k := toNat_ofNat_index (h.room.trans (Nat.lt_succ_self 511))

theorem mem_first : i ∈ w := h.perm.mem_iff.2 List.mem_cons_self

theorem mem_second : j ∈ w := h.perm.mem_iff.2 (List.mem_cons_of_mem _ List.mem_cons_self)

theorem mem_of_mem_rest {x : NodeIndex} (hx : x ∈ rest) : x ∈ w :=
  h.perm.mem_iff.2 (List.mem_cons_of_mem _ (List.mem_cons_of_mem _ hx))

theorem first_lt : i.toNat < k := h.made i h.mem_first

theorem second_lt : j.toNat < k := h.made j h.mem_second

/-- The members of the next working set are those left and the new node. -/
theorem mem_next_iff {x : NodeIndex} : x ∈ rest ++ [BitVec.ofNat 9 k] ↔ x ∈ rest ∨ x.toNat = k := by
  rw [List.mem_append, List.mem_singleton]
  exact or_congr_right ⟨fun e => e ▸ h.toNat_new, fun e => BitVec.eq_of_toNat_eq (e.trans h.toNat_new.symm)⟩

/-- The two nodes taken are different and leave the working set. -/
theorem taken : i ≠ j ∧ i ∉ rest ∧ j ∉ rest := by
  have hnodup := h.perm.nodup_iff.1 h.nodup
  simp only [List.nodup_cons, List.mem_cons, not_or] at hnodup
  obtain ⟨⟨hij, hi⟩, hj, -⟩ := hnodup
  exact ⟨hij, hi, hj⟩

/-- A member that a round does not leave is one of the two it takes. -/
theorem eq_or_eq_of_not_mem_rest {x : NodeIndex} (hx : x ∈ w) (hrest : x ∉ rest) : x = i ∨ x = j := by
  simpa [hrest] using h.perm.mem_iff.1 hx

end Round

/-! The frame of BUILD -/

theorem buildTree_frame {s : State} (h1 : 1 ≤ s.nleaf.toNat) (h2 : s.nleaf.toNat ≤ 256) {j : Nat}
    (hj : j < s.nleaf.toNat ∨ 2 * s.nleaf.toNat - 1 ≤ j) : nodeAt s.buildTree.node j = nodeAt s.node j := by
  obtain ⟨hframe, hnnode, -⟩ := buildTree_induction h1 h2
    (P := fun a k _ => ∀ p, p < s.nleaf.toNat ∨ k ≤ p → nodeAt a p = nodeAt s.node p)
    (fun _ _ => rfl) fun a k w i j rest hr hP p hp => by
      have := hr.leaves_le
      exact (Round.nodeAt_merged_of_ne (by omega)).trans (hP p (by omega))
  exact hframe j (by omega)

/-- Settles O39: the errors by their guards, the frame and the counts by the induction over the rounds. -/
theorem buildCompletes : Obligations.BuildCompletes := by
  intro s arg
  refine ⟨fun w => decode_eq_ok_iff_of_format_n (i := .build) rfl w arg, fun h => if_pos h, exec_build_of_no_leaves,
    fun hload h1 h2 => ?_⟩
  obtain ⟨hnnode, hqueue⟩ := buildTree_counts h1 h2
  refine ⟨_, exec_build_of_leaves hload h1, ?_, rfl, hnnode, hqueue, fun j hj => buildTree_frame h1 h2 hj, rfl, rfl,
    rfl, rfl, ⟨rfl, rfl⟩, ⟨rfl, rfl⟩⟩
  exact congrArg (fun d => { s.chan with busy := false, rspv := true, rsp := 0x03000000, data := d })
    (BitVec.ofNat_toNat 32 s.buildTree.root).symm

/-! The tree -/

/-- Record `p` of the arena is an internal node over two different lower nodes, with the exact sum of their frequencies
(10_state R28, R29). -/
def IsFork (a : Arena) (p : Nat) : Prop :=
  (nodeAt a p).leaf = false ∧ (nodeAt a p).sym = 0 ∧ (nodeAt a p).left.toNat < p ∧ (nodeAt a p).right.toNat < p ∧
    (nodeAt a p).left ≠ (nodeAt a p).right ∧
    (nodeAt a p).freq.toNat =
      (nodeAt a (nodeAt a p).left.toNat).freq.toNat + (nodeAt a (nodeAt a p).right.toNat).freq.toNat

/-- The frequencies of the nodes of a working set, together. -/
def weight (a : Arena) (w : List NodeIndex) : Nat := (w.map fun i => (nodeAt a i.toNat).freq.toNat).sum

/-- Between the rounds over `n` leaves of total `total` the arena below `k` is a forest of strict binary trees, with the
working set as its roots (40_builder R112). -/
structure Forest (n total : Nat) (a : Arena) (k : Nat) (w : List NodeIndex) : Prop where
  fork : ∀ p, n ≤ p → p < k → IsFork a p
  owned : ∀ c : NodeIndex, c.toNat < k → c ∉ w →
    ∃ p, (n ≤ p ∧ p < k ∧ IsChild a p c.toNat) ∧ ∀ q, n ≤ q → q < k → IsChild a q c.toNat → q = p
  roots : ∀ c ∈ w, ∀ p, n ≤ p → p < k → ¬ IsChild a p c.toNat
  weight_eq : weight a w = total

section
variable {n total k : Nat} {a : Arena} {w rest : List NodeIndex} {i j : NodeIndex}

/-- The sum of the two frequencies does not wrap, since the total does not (40_builder R111). -/
theorem Forest.freq_new (hF : Forest n total a k w) (h : Round n a k w i j rest) (htotal : total < 2 ^ 32) :
    (internalNode a i j).freq.toNat = (nodeAt a i.toNat).freq.toNat + (nodeAt a j.toNat).freq.toNat ∧
      (internalNode a i j).freq.toNat + weight a rest = total := by
  have hsum : total = (nodeAt a i.toNat).freq.toNat + ((nodeAt a j.toNat).freq.toNat + weight a rest) := by
    rw [← hF.weight_eq]
    exact (h.perm.map _).sum_eq
  have hexact : (internalNode a i j).freq.toNat = (nodeAt a i.toNat).freq.toNat + (nodeAt a j.toNat).freq.toNat :=
    Nat.mod_eq_of_lt (by omega)
  exact ⟨hexact, by omega⟩

theorem Forest.isFork_merged (hF : Forest n total a k w) (h : Round n a k w i j rest) (htotal : total < 2 ^ 32)
    {p : Nat} (hn : n ≤ p) (hp : p < k + 1) : IsFork (merged a k i j) p := by
  obtain ⟨hij, -, -⟩ := h.taken
  rw [IsFork]
  obtain hp | rfl := Nat.lt_succ_iff_lt_or_eq.1 hp
  · obtain ⟨hleaf, hsym, hleft, hright, hne, hsum⟩ := hF.fork p hn hp
    rw [Round.nodeAt_merged_of_ne hp.ne, Round.nodeAt_merged_of_ne (by omega), Round.nodeAt_merged_of_ne (by omega)]
    exact ⟨hleaf, hsym, hleft, hright, hne, hsum⟩
  · rw [h.nodeAt_merged_self]
    refine ⟨rfl, rfl, h.first_lt, h.second_lt, hij, (hF.freq_new h htotal).1.trans ?_⟩
    exact congrArg₂ (fun x y => x.freq.toNat + y.freq.toNat) (Round.nodeAt_merged_of_ne h.first_lt.ne).symm
      (Round.nodeAt_merged_of_ne h.second_lt.ne).symm

/-- The parents after a round are those before it, and the new node over the two taken. -/
theorem isChild_merged_iff (h : Round n a k w i j rest) {c p : Nat} (hp : p < k + 1) :
    IsChild (merged a k i j) p c ↔ (p < k ∧ IsChild a p c) ∨ (p = k ∧ (i.toNat = c ∨ j.toNat = c)) := by
  obtain hp | rfl := Nat.lt_succ_iff_lt_or_eq.1 hp
  · simp [Round.isChild_merged_of_ne hp.ne, hp, hp.ne]
  · simp [h.isChild_merged_self]

/-- The children of the forest's internal nodes are nodes already made. -/
theorem Forest.child_lt (hF : Forest n total a k w) {p c : Nat} (hn : n ≤ p) (hp : p < k) (hc : IsChild a p c) :
    c < p := by
  obtain ⟨-, -, hleft, hright, -, -⟩ := hF.fork p hn hp
  exact hc.elim (fun e => e ▸ hleft) fun e => e ▸ hright

/-- The two nodes taken get the new node as their one parent, and the others keep theirs. -/
theorem Forest.owned_merged (hF : Forest n total a k w) (h : Round n a k w i j rest) (c : NodeIndex)
    (hc : c.toNat < k + 1) (hout : c ∉ rest ++ [BitVec.ofNat 9 k]) :
    ∃ p, (n ≤ p ∧ p < k + 1 ∧ IsChild (merged a k i j) p c.toNat) ∧
      ∀ q, n ≤ q → q < k + 1 → IsChild (merged a k i j) q c.toNat → q = p := by
  obtain ⟨hrest, hck⟩ := not_or.1 (mt h.mem_next_iff.2 hout)
  by_cases hw : c ∈ w
  · refine ⟨k, ⟨h.leaves_le, Nat.lt_succ_self k, (h.isChild_merged_self _).2 ?_⟩, fun q hn hq hchild => ?_⟩
    · exact (h.eq_or_eq_of_not_mem_rest hw hrest).imp (fun e => congrArg _ e.symm) fun e => congrArg _ e.symm
    · obtain ⟨hq, hchild⟩ | ⟨hq, -⟩ := (isChild_merged_iff h hq).1 hchild
      · exact absurd hchild (hF.roots c hw q hn hq)
      · exact hq
  · obtain ⟨p, ⟨hn, hp, hchild⟩, huniq⟩ := hF.owned c (by omega) hw
    refine ⟨p, ⟨hn, by omega, (isChild_merged_iff h (by omega)).2 (.inl ⟨hp, hchild⟩)⟩, fun q hn hq hchild => ?_⟩
    obtain ⟨hq, hchild⟩ | ⟨-, e | e⟩ := (isChild_merged_iff h hq).1 hchild
    · exact huniq q hn hq hchild
    · exact absurd (BitVec.eq_of_toNat_eq e ▸ h.mem_first) hw
    · exact absurd (BitVec.eq_of_toNat_eq e ▸ h.mem_second) hw

/-- No node is over a member left, nor over the new node. -/
theorem Forest.roots_merged (hF : Forest n total a k w) (h : Round n a k w i j rest) (c : NodeIndex)
    (hc : c ∈ rest ++ [BitVec.ofNat 9 k]) (p : Nat) (hn : n ≤ p) (hp : p < k + 1) :
    ¬ IsChild (merged a k i j) p c.toNat := by
  obtain ⟨-, hi, hj⟩ := h.taken
  intro hchild
  obtain ⟨hp, hchild⟩ | ⟨-, e⟩ := (isChild_merged_iff h hp).1 hchild
  · obtain hc | hc := h.mem_next_iff.1 hc
    · exact hF.roots c (h.mem_of_mem_rest hc) p hn hp hchild
    · exact absurd (hF.child_lt hn hp hchild) (by omega)
  · obtain ⟨hc, e | e⟩ | hc := (h.mem_next_iff.1 hc).imp_left fun hc => And.intro hc e
    · exact hi (BitVec.eq_of_toNat_eq e ▸ hc)
    · exact hj (BitVec.eq_of_toNat_eq e ▸ hc)
    · have := h.first_lt
      have := h.second_lt
      omega

/-- The new node weighs what the two nodes taken did. -/
theorem Forest.weight_merged (hF : Forest n total a k w) (h : Round n a k w i j rest) (htotal : total < 2 ^ 32) :
    weight (merged a k i j) (rest ++ [BitVec.ofNat 9 k]) = total := by
  have hkept : weight (merged a k i j) rest = weight a rest := congrArg List.sum <| List.map_congr_left fun x hx =>
    congrArg (fun y : Node => y.freq.toNat) (Round.nodeAt_merged_of_ne (h.made x (h.mem_of_mem_rest hx)).ne)
  have hnew : (nodeAt (merged a k i j) (BitVec.ofNat 9 k).toNat).freq = (internalNode a i j).freq := by
    rw [h.toNat_new, h.nodeAt_merged_self]
  obtain ⟨-, hsum⟩ := hF.freq_new h htotal
  rw [weight, List.map_append, List.sum_append, List.map_singleton, List.sum_singleton, hnew, ← weight, hkept,
    Nat.add_comm, hsum]

/-- A round makes one tree of two of the forest. -/
theorem Forest.round (hF : Forest n total a k w) (h : Round n a k w i j rest) (htotal : total < 2 ^ 32) :
    Forest n total (merged a k i j) (k + 1) (rest ++ [BitVec.ofNat 9 k]) :=
  ⟨fun _ => hF.isFork_merged h htotal, hF.owned_merged h, hF.roots_merged h, hF.weight_merged h htotal⟩

end

/-- The loaded leaves are a forest of one-node trees (10_state R29). -/
theorem State.Inv.forest {s : State} (h : s.Inv) :
    Forest s.nleaf.toNat s.total.toNat s.node s.nleaf.toNat ((List.range s.nleaf.toNat).map (BitVec.ofNat 9)) := by
  have hle := h.counts.leaves_le
  refine ⟨fun p _ _ => by omega, fun c hc hout => absurd ?_ hout, fun c _ p _ _ => by omega, ?_⟩
  · exact List.mem_map.2 ⟨c.toNat, List.mem_range.2 hc, BitVec.ofNat_toNat 9 c ▸ BitVec.setWidth_eq c⟩
  · rw [h.leaves.total, weight, freqs, List.map_map]
    refine congrArg List.sum (List.map_congr_left fun i hi => ?_)
    have := List.mem_range.1 hi
    rw [Function.comp_apply, toNat_ofNat_index (by omega)]

/-- The tree BUILD makes is the forest with one root left, which is the last node since no node is over it. -/
theorem State.Inv.buildTree_forest {s : State} (h : s.Inv) (h1 : 1 ≤ s.nleaf.toNat) :
    Forest s.nleaf.toNat s.total.toNat s.buildTree.node s.buildTree.nnode.toNat [s.buildTree.root] ∧
      s.buildTree.nnode.toNat = 2 * s.nleaf.toNat - 1 ∧ s.buildTree.root.toNat = 2 * s.nleaf.toNat - 2 := by
  have hle := h.counts.leaves_le
  obtain ⟨hF, hnnode, -⟩ := buildTree_induction h1 hle h.forest fun a k w i j rest hr hP => hP.round hr s.total.isLt
  refine ⟨hF, hnnode, ?_⟩
  have hlast : (BitVec.ofNat 9 (2 * s.nleaf.toNat - 2)).toNat = 2 * s.nleaf.toNat - 2 := toNat_ofNat_index (by omega)
  by_contra hne
  obtain ⟨p, ⟨hn, hp, hchild⟩, -⟩ := hF.owned (BitVec.ofNat 9 (2 * s.nleaf.toNat - 2)) (by omega) fun hmem =>
    hne (List.mem_singleton.1 hmem ▸ hlast)
  have := hF.child_lt hn hp hchild
  omega

theorem State.Inv.treeOk_buildTree {s : State} (h : s.Inv) (h1 : 1 ≤ s.nleaf.toNat) : TreeOk s.buildTree := by
  obtain ⟨hF, hnnode, hroot⟩ := h.buildTree_forest h1
  refine ⟨hF.fork, fun c hc => ?_, hF.roots _ (List.mem_singleton_self _), BitVec.eq_of_toNat_eq ?_⟩
  · have hindex : (BitVec.ofNat 9 c).toNat = c := toNat_ofNat_index (hc.trans s.buildTree.root.isLt)
    have howned := hF.owned (BitVec.ofNat 9 c) (by omega) fun hmem => by
      rw [← List.mem_singleton.1 hmem, hindex] at hc
      exact lt_irrefl _ hc
    rwa [hindex] at howned
  · simpa [weight] using hF.weight_eq

/-- Settles O40: the rounds keep the forest, and at its one root it is the tree. -/
theorem buildMakesStrictTree : Obligations.BuildMakesStrictTree := by
  intro s hinv hload h1
  have hle := hinv.counts.leaves_le
  obtain ⟨-, hnnode, hroot⟩ := hinv.buildTree_forest h1
  have htree := hinv.treeOk_buildTree h1
  refine ⟨_, exec_build_of_leaves hload h1, responseWord_code _ _, hnnode, hroot, ?_,
    fun j hj => buildTree_frame h1 hle (.inl hj), ⟨htree.internal, htree.owned, htree.rootFree, htree.rootTotal⟩⟩
  rw [State.answered_chan_data, BitVec.toNat_setWidth, hroot]
  exact Nat.mod_eq_of_lt (by omega)

end Sys2Proof.Machine
end

section
/-!
PROOFS. Every edge keeps the invariants (10_state R29 to R38): the internal state is empty after it, and the tree, the
table and the decoder are those of the invariants again.
-/

namespace Sys2Proof.Machine

/-! The internal state (10_state R36, R37, R38) -/

/-- BUILD extracts the last node of its heap, and GENCODES ends with no pending node. -/
theorem Success.rest {s u : State} {i : Instr} {d : Word} (h : Success s i u d) (hle : s.nleaf.toNat ≤ 256)
    (hqueue : s.queue.size = 0) (hsp : s.walk.sp = 0) : u.queue.size = 0 ∧ u.walk.sp = 0 := by
  cases h with
  | clear => exact ⟨rfl, rfl⟩
  | build _ hleaf =>
    obtain ⟨-, hempty⟩ := buildTree_counts (one_le_toNat_of_ne_zero hleaf) hle
    exact ⟨hempty, hsp⟩
  | gencodes r _ hr => exact ⟨hqueue, walkLoop_sp _ _ _ _ _ _ _ hr⟩
  | _ => exact ⟨hqueue, hsp⟩

theorem Ended.restOk {s t : State} {i : Instr} (h : Ended s i t) (hle : s.nleaf.toNat ≤ 256) (hrest : RestOk s) :
    RestOk t := by
  obtain ⟨hqueue, hsp, -⟩ := hrest
  cases h with
  | quiet | invalidBit | truncated => exact ⟨hqueue, hsp, by simp⟩
  | success u d hs =>
    obtain ⟨hqueue', hsp'⟩ := hs.rest hle hqueue hsp
    exact ⟨hqueue', hsp', by simp⟩

/-- An edge performs the command in flight, resets the block, or changes the channel alone, and that to one in which
`BUSY` and `RSPV` are not both 1 if they were not before (30_encoding R81). -/
theorem step_next_cases {s t : State} (h : step s = .next t) (hchan : ¬ (s.chan.busy = true ∧ s.chan.rspv = true)) :
    (∃ i, Ended s.popPins i t) ∨ t = s.popPins.hardReset ∨
      ∃ c : Channel, t = { s with chan := c } ∧ ¬ (c.busy = true ∧ c.rspv = true) := by
  obtain ⟨-, hs⟩ | ⟨-, -, -, hs⟩ | ⟨-, -, -, hs⟩ | ⟨-, -, -, -, hs⟩ | ⟨-, -, -, -, hs⟩ | ⟨-, -, hrspv, -, hs⟩ |
    ⟨-, -, -, -, hs⟩ := step_cases s
  case inr.inl =>
    obtain ⟨i, -, hrun⟩ | ⟨e, -, hrun⟩ := runCommand_cases s.popPins
    · exact .inl ⟨i, exec_cases (hrun.symm.trans (hs.symm.trans h))⟩
    · cases (hs.trans hrun).symm.trans h
      exact .inr (.inr ⟨_, rfl, by simp⟩)
  case inl =>
    cases hs.symm.trans h
    exact .inr (.inl rfl)
  all_goals
    cases hs.symm.trans h
    exact .inr (.inr ⟨_, rfl, by simp_all⟩)

/-- Settles O22: the commands by how each can end, the other edges by what each leaves of the channel. -/
theorem stepKeepsWorkingStateEmpty : Obligations.StepKeepsWorkingStateEmpty := by
  intro s t hle hrest h
  obtain ⟨i, hend⟩ | rfl | ⟨c, rfl, hc⟩ := step_next_cases h hrest.channel
  · exact hend.restOk hle ⟨hrest.queue, hrest.stack, hrest.channel⟩
  · exact ⟨rfl, rfl, by simp [State.reset]⟩
  · exact ⟨hrest.queue, hrest.stack, hc⟩

/-! Sessions without leaves -/

/-- A session with nothing loaded meets the invariants, whatever its arrays hold (43_system R181,
70_reset_and_hazards R230). -/
theorem inv_of_archEq_reset {s : State} (h : ArchEq s State.reset) (hrest : RestOk s) : s.Inv := by
  have hleaf : s.nleaf.toNat = 0 := congrArg BitVec.toNat h.nleaf
  have hseen : ∀ sym, flagAt s.seen sym = false := fun sym => h.seen ▸ flagAt_replicate false sym
  have hvalid : ∀ sym, flagAt s.table.valid sym = false := fun sym => h.valid ▸ flagAt_replicate false sym
  have htv : s.tv = false := h.tv
  have hbuilt : s.phase ≠ .built := h.phase ▸ nofun
  exact {
    counts := ⟨by omega, fun _ => ⟨h.nnode.trans h.nleaf.symm, h.root⟩, fun hb => absurd hb hbuilt⟩
    leaves := ⟨fun i hi => by omega, fun i hi => by omega,
      fun sym => iff_of_false (by simp [hseen]) fun ⟨i, hi, _⟩ => by omega,
      hleaf ▸ congrArg BitVec.toNat h.total⟩
    tree := fun hb => absurd hb hbuilt
    table := ⟨fun _ => hvalid, fun hv => absurd hv (by simp [htv]), fun hv => absurd hv (by simp [htv]),
      fun sym hv => absurd hv (by simp [hvalid])⟩
    decoder := ⟨fun _ => ⟨h.dstate, h.cursor⟩, fun ha => absurd ha (h.dstate ▸ nofun)⟩
    rest := hrest }

/-- Settles O20: reset is a session with nothing loaded. -/
theorem resetMeetsInvariants : Obligations.ResetMeetsInvariants :=
  inv_of_archEq_reset ⟨rfl, rfl, rfl, rfl, rfl, rfl, fun _ _ => rfl, rfl, rfl, fun _ _ => ⟨rfl, rfl⟩, rfl, rfl⟩
    ⟨rfl, rfl, by simp [State.reset]⟩

/-! The tree under construction -/

/-- The leaves are read at the indices below `NLEAF` alone. -/
theorem LeavesOk.congr {s t : State} (h : LeavesOk s) (hleaf : t.nleaf = s.nleaf) (hseen : t.seen = s.seen)
    (htotal : t.total = s.total) (hnode : ∀ i, i < s.nleaf.toNat → nodeAt t.node i = nodeAt s.node i) :
    LeavesOk t := by
  refine ⟨fun i hi => ?_, fun i hi j hj => ?_, fun sym => ?_, ?_⟩
  · rw [hleaf] at hi
    rw [hnode i hi]
    exact h.shape i hi
  · rw [hleaf] at hi hj
    rw [hnode i hi, hnode j hj]
    exact h.distinct i hi j hj
  · rw [hseen, h.seen, hleaf]
    exact exists_congr fun i => and_congr_right fun hi => by rw [hnode i hi]
  · rw [htotal, hleaf, h.total, freqs, freqs]
    exact congrArg List.sum (List.map_congr_left fun i hi => by rw [hnode i (List.mem_range.1 hi)])

namespace State.Inv

variable {s : State} (h : s.Inv)
include h

/-- While leaves are loaded there is no table (10_state R30). -/
theorem no_table_of_loading (hload : s.phase = .loading) :
    s.tv = false ∧ ∀ sym, flagAt s.table.valid sym = false := by
  have htv : s.tv = false := Bool.eq_false_iff.2 fun hv => nomatch hload.symm.trans (h.table.built hv)
  exact ⟨htv, h.table.empty htv⟩

theorem not_active_of_loading (hload : s.phase = .loading) : s.dstate ≠ .active := by
  rw [(h.decoder.loading hload).1]
  exact nofun

theorem tableOk_of_loading (hload : s.phase = .loading) {t : State} (htv : t.tv = s.tv) (htable : t.table = s.table) :
    TableOk t := by
  obtain ⟨htv', hvalid⟩ := h.no_table_of_loading hload
  rw [← htv] at htv'
  rw [← htable] at hvalid
  exact ⟨fun _ => hvalid, fun hv => by simp [htv'] at hv, fun hv => by simp [htv'] at hv,
    fun sym hv => by simp [hvalid] at hv⟩

/-! LOAD (40_builder R101) -/

section
variable {sym : Symbol} (hseen : flagAt s.seen sym = false) (count : Freq)
include hseen

theorem nleaf_addLeaf : (s.addLeaf sym count).nleaf.toNat = s.nleaf.toNat + 1 := by
  have := h.nleaf_le_of_unseen hseen
  exact Nat.mod_eq_of_lt (show s.nleaf.toNat + 1 < 512 by omega)

theorem nodeAt_addLeaf {i : Nat} (hi : i < (s.addLeaf sym count).nleaf.toNat) :
    (i < s.nleaf.toNat ∧ nodeAt (s.addLeaf sym count).node i = nodeAt s.node i) ∨
      (i = s.nleaf.toNat ∧ nodeAt (s.addLeaf sym count).node i = leafNode sym count) := by
  have hle := h.nleaf_le_of_unseen hseen
  rw [h.nleaf_addLeaf hseen] at hi
  obtain hi | rfl := Nat.lt_succ_iff_lt_or_eq.1 hi
  · exact .inl ⟨hi, nodeAt_setNode_of_ne _ _ _ _ hi.ne'⟩
  · exact .inr ⟨rfl, nodeAt_setNode_self _ _ _ (by omega)⟩

/-- The new symbol is none of the loaded ones. -/
theorem sym_ne_of_unseen {i : Nat} (hi : i < s.nleaf.toNat) : (nodeAt s.node i).sym ≠ sym := fun e => by
  simp [(h.leaves.seen sym).2 ⟨i, hi, e⟩] at hseen

theorem seen_addLeaf (other : Symbol) : flagAt (s.addLeaf sym count).seen other = true ↔
    ∃ i, i < (s.addLeaf sym count).nleaf.toNat ∧ (nodeAt (s.addLeaf sym count).node i).sym = other := by
  have hleaf := h.nleaf_addLeaf hseen count
  have hnew : nodeAt (s.addLeaf sym count).node s.nleaf.toNat = leafNode sym count :=
    (h.nodeAt_addLeaf hseen count (by omega)).elim (fun hi => absurd hi.1 (lt_irrefl _)) And.right
  by_cases hsym : sym = other
  · subst hsym
    exact iff_of_true (flagAt_setFlag_self _ _) ⟨s.nleaf.toNat, by omega, by rw [hnew, leafNode]⟩
  · rw [State.addLeaf_seen, flagAt_setFlag_of_ne _ _ _ hsym, h.leaves.seen]
    constructor
    · rintro ⟨i, hi, e⟩
      obtain ⟨-, hold⟩ | ⟨hlast, -⟩ := h.nodeAt_addLeaf hseen count (i := i) (by omega)
      · exact ⟨i, by omega, by rw [hold, e]⟩
      · omega
    · rintro ⟨i, hi, e⟩
      obtain ⟨hi, hold⟩ | ⟨-, hlast⟩ := h.nodeAt_addLeaf hseen count hi
      · exact ⟨i, hi, by rw [← hold, e]⟩
      · rw [hlast] at e
        exact absurd e hsym

theorem leavesOk_addLeaf (hcount : count ≠ 0) (hfit : s.total.toNat + count.toNat ≤ 0xFFFFFFFF) :
    LeavesOk (s.addLeaf sym count) := by
  have hleaf := h.nleaf_addLeaf hseen count
  refine ⟨fun i hi => ?_, fun i hi j hj => ?_, h.seen_addLeaf hseen count, ?_⟩
  · obtain ⟨hi, hnode⟩ | ⟨-, hnode⟩ := h.nodeAt_addLeaf hseen count hi <;> rw [hnode]
    · exact h.leaves.shape i hi
    · exact ⟨rfl, one_le_toNat_of_ne_zero hcount, rfl, rfl⟩
  · obtain ⟨hi, hnode⟩ | ⟨hi, hnode⟩ := h.nodeAt_addLeaf hseen count hi <;>
      obtain ⟨hj, hnode'⟩ | ⟨hj, hnode'⟩ := h.nodeAt_addLeaf hseen count hj <;> rw [hnode, hnode']
    · exact h.leaves.distinct i hi j hj
    · exact fun e => absurd e (h.sym_ne_of_unseen hseen hi)
    · exact fun e => absurd e.symm (h.sym_ne_of_unseen hseen hj)
    · exact fun _ => hi.trans hj.symm
  · have hold : freqs (s.addLeaf sym count).node s.nleaf.toNat = freqs s.node s.nleaf.toNat :=
      List.map_congr_left fun i hi => by
        have hi := List.mem_range.1 hi
        obtain ⟨-, hnode⟩ | ⟨hlast, -⟩ := h.nodeAt_addLeaf hseen count (i := i) (by omega)
        · rw [hnode]
        · omega
    have hnew : (nodeAt (s.addLeaf sym count).node s.nleaf.toNat).freq = count := by
      obtain ⟨hlt, -⟩ | ⟨-, hnode⟩ := h.nodeAt_addLeaf hseen count (i := s.nleaf.toNat) (by omega)
      · omega
      · rw [hnode, leafNode]
    have htotal : (s.addLeaf sym count).total.toNat = s.total.toNat + count.toNat :=
      Nat.mod_eq_of_lt (show s.total.toNat + count.toNat < 2 ^ 32 by omega)
    rw [htotal, hleaf, h.leaves.total, ← hold, freqs, freqs, List.range_succ, List.map_append, List.sum_append,
      List.map_singleton, List.sum_singleton, hnew]

/-- LOAD adds a leaf whose symbol the others do not have. -/
theorem addLeaf (hload : s.phase = .loading) (hcount : count ≠ 0)
    (hfit : s.total.toNat + count.toNat ≤ 0xFFFFFFFF) : (s.addLeaf sym count).Inv := by
  obtain ⟨hnnode, hroot⟩ := h.counts.loading hload
  have hle := h.nleaf_le_of_unseen hseen
  have hbuilt : (s.addLeaf sym count).phase ≠ .built := hload ▸ nofun
  have hleaf := h.nleaf_addLeaf hseen count
  exact {
    counts := ⟨by omega, fun _ => ⟨congrArg (· + 1) hnnode, hroot⟩, fun hb => absurd hb hbuilt⟩
    leaves := h.leavesOk_addLeaf hseen count hcount hfit
    tree := fun hb => absurd hb hbuilt
    table := h.tableOk_of_loading hload rfl rfl
    decoder := ⟨h.decoder.loading, fun ha => absurd ha (h.not_active_of_loading hload)⟩
    rest := ⟨h.rest.queue, h.rest.stack, h.rest.channel⟩ }

end

/-! BUILD and GENCODES -/

/-- BUILD makes the tree over the leaves and touches nothing else of the session (40_builder R110). -/
theorem buildTree (hload : s.phase = .loading) (h1 : 1 ≤ s.nleaf.toNat) : s.buildTree.Inv := by
  have hle := h.counts.leaves_le
  obtain ⟨-, hnnode, hroot⟩ := h.buildTree_forest h1
  obtain ⟨-, hqueue⟩ := buildTree_counts h1 hle
  exact {
    counts := ⟨hle, nofun, fun _ => ⟨h1, hnnode, by omega⟩⟩
    leaves := h.leaves.congr rfl rfl rfl fun i hi => buildTree_frame h1 hle (.inl hi)
    tree := fun _ => h.treeOk_buildTree h1
    table := h.tableOk_of_loading hload rfl rfl
    decoder := ⟨nofun, fun ha => absurd ha (h.not_active_of_loading hload)⟩
    rest := ⟨hqueue, h.rest.stack, h.rest.channel⟩ }

/-- GENCODES writes the paths of the tree's leaves and touches nothing else of the session (41_codegen R130). -/
theorem withCodes {r : Walk × CodeTable} (hb : s.phase = .built) (hr : traverse s = some r) : (s.withCodes r).Inv := by
  obtain ⟨paths, hpaths⟩ := h.exists_leafPaths hb
  obtain ⟨w, hw⟩ := hpaths.walk s rfl rfl
  cases hw.symm.trans hr
  have hvalid : ∀ sym, flagAt (recordAll s.node s.table.invalidated paths).valid sym = flagAt s.seen sym := fun sym =>
    Bool.eq_iff_iff.2 ((hpaths.flagAt_recordAll s.table sym).trans (h.leaves.seen sym).symm)
  exact {
    counts := ⟨h.counts.leaves_le, h.counts.loading, h.counts.built⟩
    leaves := h.leaves.congr rfl rfl rfl fun _ _ => rfl
    tree := fun hb => ⟨(h.tree hb).internal, (h.tree hb).owned, (h.tree hb).rootFree, (h.tree hb).rootTotal⟩
    table := ⟨nofun, fun _ => hb, fun _ => hvalid, fun _ => hpaths.hasLeafCode s.table⟩
    decoder := ⟨h.decoder.loading, h.decoder.active⟩
    rest := ⟨h.rest.queue, walkLoop_sp _ _ _ _ _ _ _ hr, h.rest.channel⟩ }

/-! The decoder -/

/-- The decoder is read by its own invariant alone. -/
theorem withDecoder {d : DecoderState} {c : NodeIndex} (hdec : DecoderOk { s with dstate := d, cursor := c }) :
    ({ s with dstate := d, cursor := c } : State).Inv where
  counts := ⟨h.counts.leaves_le, h.counts.loading, h.counts.built⟩
  leaves := h.leaves.congr rfl rfl rfl fun _ _ => rfl
  tree hb := ⟨(h.tree hb).internal, (h.tree hb).owned, (h.tree hb).rootFree, (h.tree hb).rootTotal⟩
  table := ⟨h.table.empty, h.table.built, h.table.valid, h.table.codes⟩
  decoder := hdec
  rest := ⟨h.rest.queue, h.rest.stack, h.rest.channel⟩

/-- While a stream over two or more leaves is open, the cursor is an internal node (10_state R35). -/
theorem cursor_fork (hb : s.phase = .built) (ha : s.dstate = .active) (hroot : (rootNode s).leaf = false) :
    (nodeAt s.node s.cursor.toNat).leaf = false ∧ s.nleaf.toNat ≤ s.cursor.toNat ∧ s.cursor.toNat < s.nnode.toNat := by
  obtain ⟨hpos, hnnode, hlast⟩ := h.counts.built hb
  obtain hc | ⟨hge, hlt, hfork⟩ := h.decoder.active ha
  · rw [hc]
    exact ⟨hroot, h.nleaf_le_of_fork hroot, by omega⟩
  · exact ⟨hfork, hge, hlt⟩

/-- A digit leads to a node of the tree (42_decoder R152). -/
theorem nextIndex_lt (hb : s.phase = .built) (ha : s.dstate = .active) (hroot : (rootNode s).leaf = false)
    (dir : Bool) : (nextIndex s dir).toNat < s.nnode.toNat := by
  obtain ⟨-, hge, hlt⟩ := h.cursor_fork hb ha hroot
  obtain ⟨-, -, hleft, hright, -, -⟩ := (h.tree hb).internal s.cursor.toNat hge hlt
  cases dir with
  | false => exact hleft.trans hlt
  | true => exact hright.trans hlt

theorem success {i : Instr} {u : State} {d : Word} (hs : Success s i u d) : u.Inv := by
  have hnotLoading : s.phase = .built → s.phase ≠ .loading := fun hb hl => nomatch hb.symm.trans hl
  cases hs with
  | clear =>
    exact inv_of_archEq_reset
      ⟨rfl, rfl, rfl, rfl, rfl, rfl, fun i hi => absurd hi (Nat.not_lt_zero i), rfl, rfl, fun sym hv => by simp at hv,
        rfl, rfl⟩
      ⟨rfl, rfl, h.rest.channel⟩
  | load sym count hload hcount hseen hfit => exact h.addLeaf hseen count hload hcount hfit
  | build hload hleaf => exact h.buildTree hload (one_le_toNat_of_ne_zero hleaf)
  | gencodes r hb hr => exact h.withCodes hb hr
  | decstart hb => exact h.withDecoder ⟨fun hl => absurd hl (hnotLoading hb), fun _ => .inl rfl⟩
  | digitLeaf _ _ hb => exact h.withDecoder ⟨fun hl => absurd hl (hnotLoading hb), fun _ => .inl rfl⟩
  | digitInternal _ dir hb ha hroot _ hfork =>
    exact h.withDecoder ⟨fun hl => absurd hl (hnotLoading hb), fun _ =>
      .inr ⟨h.nleaf_le_of_fork hfork, h.nextIndex_lt hb ha hroot dir, hfork⟩⟩
  | decend hb => exact h.withDecoder ⟨fun hl => absurd hl (hnotLoading hb), nofun⟩
  | _ => exact h

theorem withFailed (hb : s.phase = .built) : (s.setDstate .failed).Inv :=
  h.withDecoder ⟨fun hl => (nomatch hb.symm.trans hl), nofun⟩

theorem reply (opc : BitVec 8) (e : ErrorCode) (d : Word) : (s.reply opc e d).Inv :=
  inv_withChan h _ (by simp)

theorem ended {i : Instr} {t : State} (hend : Ended s i t) : t.Inv := by
  cases hend with
  | quiet => exact h.reply ..
  | invalidBit _ _ hb | truncated _ hb => exact (h.withFailed hb).reply ..
  | success u d hs => exact (h.success hs).reply ..

end State.Inv

/-- Settles O21: the commands by how each can end, `rst` by the reset state, and the other edges write the channel
alone. -/
theorem stepKeepsInvariants : Obligations.StepKeepsInvariants := by
  intro s t h hstep
  obtain ⟨i, hend⟩ | rfl | ⟨c, rfl, hc⟩ := step_next_cases hstep h.rest.channel
  · exact State.Inv.ended (s := s.popPins) (inv_withChan h _ h.rest.channel) hend
  · exact inv_of_archEq_reset (archEq_hardReset_reset _) ⟨rfl, rfl, by simp [State.reset]⟩
  · exact inv_withChan h c hc

end Sys2Proof.Machine
end

section
/-!
PROOFS. The codes of a built tree (10_state R31, R32, 40_builder R115): none begins another, none is longer than the
tree is high, and where the tree is one leaf the code is empty.
-/

namespace Sys2Proof.Machine

/-! Paths (00_scope R10) -/

theorem follow_append (a : Arena) (n : NodeIndex) (p q : List Bool) :
    follow a n (p ++ q) = (follow a n p).bind fun m => follow a m q := by
  induction p generalizing n with
  | nil => rfl
  | cons d p ih =>
    rw [List.cons_append, follow, follow]
    split_ifs
    · rfl
    · exact ih _

/-- A path of one more digit ends at a child of an internal node. -/
theorem follow_concat_eq_some {a : Arena} {n m : NodeIndex} {p : List Bool} {d : Bool}
    (h : follow a n (p ++ [d]) = some m) :
    ∃ q, follow a n p = some q ∧ (nodeAt a q.toNat).leaf = false ∧ childOf (nodeAt a q.toNat) d = m := by
  rw [follow_append, Option.bind_eq_some_iff] at h
  obtain ⟨q, hq, h⟩ := h
  rw [follow] at h
  split_ifs at h with hleaf
  exact ⟨q, hq, Bool.eq_false_iff.2 hleaf, Option.some.inj h⟩

theorem isChild_childOf (a : Arena) (p : NodeIndex) (d : Bool) :
    IsChild a p.toNat (childOf (nodeAt a p.toNat) d).toNat := by
  cases d with
  | false => exact .inl rfl
  | true => exact .inr rfl

/-- Settles O49: from the leaf where the one code ends no digit leads on, so the other code ends there too. -/
theorem codesArePrefixFree : Obligations.CodesArePrefixFree := by
  rintro s h x y hx hy hne ⟨ds, hds⟩
  obtain ⟨⟨l, hl, hsym, hpath⟩, -⟩ := h.table.codes x hx
  obtain ⟨⟨m, -, hsym', hpath'⟩, -⟩ := h.table.codes y hy
  rw [← hds, follow_append, hpath, Option.bind_some] at hpath'
  rw [eq_nil_of_follow_leaf (h.leaves.shape _ hl).1 hpath'] at hpath'
  cases hpath'
  exact hne (hsym.symm.trans hsym')

namespace State.Inv

variable {s : State} (h : s.Inv) (hb : s.phase = .built)
include h hb

theorem root_lt : s.root.toNat < s.nnode.toNat := by
  obtain ⟨hpos, hnnode, hroot⟩ := h.counts.built hb
  omega

/-- The children of an internal node are lower nodes. -/
theorem childOf_lt {p : NodeIndex} (hp : p.toNat < s.nnode.toNat) (hfork : (nodeAt s.node p.toNat).leaf = false)
    (d : Bool) : (childOf (nodeAt s.node p.toNat) d).toNat < p.toNat := by
  obtain ⟨-, -, hleft, hright, -, -⟩ := (h.tree hb).internal p.toNat (h.nleaf_le_of_fork hfork) hp
  cases d with
  | false => exact hleft
  | true => exact hright

/-- A path goes down one internal node a digit (10_state R29). -/
theorem length_le_of_follow {n l : NodeIndex} {ds : List Bool} (hn : n.toNat < s.nnode.toNat)
    (hpath : follow s.node n ds = some l) : ds.length ≤ n.toNat + 1 - s.nleaf.toNat := by
  induction ds generalizing n with
  | nil => exact Nat.zero_le _
  | cons d ds ih =>
    rw [follow] at hpath
    split_ifs at hpath with hleaf
    have hfork := Bool.eq_false_iff.2 hleaf
    have hge := h.nleaf_le_of_fork hfork
    have hlt := h.childOf_lt hb hn hfork d
    have := ih (hlt.trans hn) hpath
    rw [List.length_cons]
    omega

end State.Inv

/-- Settles O50: a code is a path from the root, which is the last of `2·NLEAF - 1` nodes. -/
theorem codeLengthBelowLeafCount : Obligations.CodeLengthBelowLeafCount := by
  intro s h sym hvalid
  have htv : s.tv = true := by
    by_contra htv
    simp [h.table.empty (Bool.eq_false_iff.2 htv)] at hvalid
  have hb : s.phase = .built := h.table.built htv
  obtain ⟨hpos, hnnode, hroot⟩ := h.counts.built hb
  obtain ⟨⟨l, -, -, hpath⟩, -⟩ := h.table.codes sym hvalid
  have hlen := h.length_le_of_follow hb (h.root_lt hb) hpath
  rw [codeOf, length_digits] at hlen
  omega

/-- GENCODES in a state that meets the invariants answers a state that does, with the path to its leaf as the code of
every loaded symbol (41_codegen R130). -/
theorem State.Inv.exists_exec_gencodes {s : State} (h : s.Inv) (hb : s.phase = .built) :
    ∃ u, exec .gencodes s = .next u ∧ u.Inv ∧ SameTree s u ∧ u.chan.data = BitVec.ofNat 32 s.nleaf.toNat ∧
      ∀ l, l < s.nleaf.toNat → flagAt u.table.valid (nodeAt s.node l).sym = true := by
  obtain ⟨-, -, hbuilt⟩ := gencodesFollowsRule s 0
  obtain ⟨u, hexec, hchan, -, hvalid, -, -, htree, -⟩ := hbuilt h hb
  exact ⟨u, hexec, h.ended (exec_cases hexec), htree, hchan ▸ rfl, fun l hl => (hvalid _).2 ⟨l, hl, rfl⟩⟩

/-- Settles O42: one leaf makes a tree of one node, and no code is longer than one leaf allows. -/
theorem oneLeafTreeHasEmptyCode : Obligations.OneLeafTreeHasEmptyCode := by
  intro s h hload hone
  have h1 : s.nleaf.toNat = 1 := by rw [hone]; rfl
  obtain ⟨-, hnnode, hroot⟩ := h.buildTree_forest h1.ge
  have hleaf : nodeAt s.buildTree.node 0 = nodeAt s.node 0 := buildTree_frame h1.ge (by omega) (by omega)
  have hbuild := exec_build_of_leaves hload h1.ge
  obtain ⟨u, hgen, hu, ⟨-, hnleaf, -⟩, hdata, hvalid⟩ := (h.ended (exec_cases hbuild)).exists_exec_gencodes rfl
  have hsym : flagAt u.table.valid (nodeAt s.node 0).sym = true := hleaf ▸ hvalid 0 h1.symm.le
  have hlen := codeLengthBelowLeafCount u hu _ hsym
  rw [show u.nleaf = s.nleaf from hnleaf] at hlen
  obtain ⟨-, hbeyond⟩ := hu.table.codes _ hsym
  refine ⟨_, u, hbuild, BitVec.eq_of_toNat_eq (hroot.trans (by rw [h1]; rfl)),
    BitVec.eq_of_toNat_eq (hnnode.trans (by rw [h1]; rfl)), hleaf, hgen,
    hdata.trans (congrArg (BitVec.ofNat 32) h1), hsym, BitVec.eq_of_toNat_eq (Nat.le_zero.1 (by omega)),
    BitVec.eq_of_getLsbD_eq fun k _ => ?_⟩
  rw [hbeyond k (by omega)]
  simp

/-! Every command responds (60_exceptions R216) -/

/-- Every branch of every command but GENCODES answers. -/
theorem exists_exec_of_ne_gencodes {i : Instr} (hi : i ≠ .gencodes) (s : State) : ∃ t, exec i s = .next t := by
  cases i with
  | gencodes => exact absurd rfl hi
  | nop | clear => exact ⟨_, rfl⟩
  | load sym count => exact ⟨_, exec_load sym count s⟩
  | build =>
    obtain ⟨_, -, h⟩ | ⟨-, -, h⟩ := execBuild_cases s
    · exact ⟨_, h⟩
    · exact ⟨_, h⟩
  | decbit ch =>
    cases hch : digitOfChar ch with
    | some dir =>
      obtain ⟨v, e, d, hexec⟩ := exists_exec_of_sends s dir
      exact ⟨_, hexec _ (.char ch hch)⟩
    | none =>
      simp only [exec, execDecbit, hch]
      split_ifs <;> exact ⟨_, rfl⟩
  | decraw bit =>
    obtain ⟨v, e, d, hexec⟩ := exists_exec_of_sends s (digitOfBit bit)
    exact ⟨_, hexec _ (.raw bit rfl)⟩
  | lookup | readcode | nodefreq | nodelink | info =>
    simp only [exec, execLookup, execReadcode, execNodefreq, execNodelink, execInfo]
    split <;> exact ⟨_, rfl⟩
  | decstart | decroot | decend =>
    simp only [exec, execDecstart, execDecroot, execDecend]
    split_ifs <;> exact ⟨_, rfl⟩

/-- Settles O23: branch by branch, but for the walk of GENCODES, which ends in a tree. -/
theorem everyCommandResponds : Obligations.EveryCommandResponds := by
  refine ⟨fun i s hi => exists_exec_of_ne_gencodes hi s, fun s h => ?_⟩
  by_cases hb : s.phase = .built
  · exact (h.exists_exec_gencodes hb).imp fun _ hu => hu.1
  · exact ⟨_, exec_gencodes_of_not_built hb⟩

end Sys2Proof.Machine
end

section
/-!
PROOFS. The rounds of BUILD take nodes in the order of their keys, so that a node of higher frequency lies no deeper
(40_builder R116).
-/

namespace Sys2Proof.Machine

theorem nodeKey_lt_of_freq_le {a b : Arena} {x y : NodeIndex}
    (hfreq : (nodeAt a x.toNat).freq.toNat ≤ (nodeAt b y.toNat).freq.toNat) (hxy : x.toNat < y.toNat) :
    nodeKey a x < nodeKey b y := by
  rw [nodeKey, nodeKey, Prod.Lex.toLex_lt_toLex]
  exact hfreq.lt_or_eq.imp id fun e => ⟨e, hxy⟩

theorem freq_le_of_nodeKey_lt {a : Arena} {x y : NodeIndex} (h : nodeKey a x < nodeKey a y) :
    (nodeAt a x.toNat).freq.toNat ≤ (nodeAt a y.toNat).freq.toNat := by
  rw [nodeKey, nodeKey, Prod.Lex.toLex_lt_toLex] at h
  exact h.elim le_of_lt fun h => h.1.le

/-- The children of one internal node have lesser keys than those of a later one. -/
def ChildrenInOrder (n : Nat) (a : Arena) (k : Nat) : Prop :=
  ∀ p q, n ≤ p → p < q → q < k → ∀ c d : NodeIndex, IsChild a p c.toNat → IsChild a q d.toNat →
    nodeKey a c < nodeKey a d

/-- Between the rounds the nodes taken, which are the children, are in order and have lesser keys than the nodes still
to be taken. -/
structure TakenInOrder (n : Nat) (a : Arena) (k : Nat) (w : List NodeIndex) : Prop where
  children : ChildrenInOrder n a k
  pending : ∀ p, n ≤ p → p < k → ∀ c : NodeIndex, IsChild a p c.toNat → ∀ y ∈ w, nodeKey a c < nodeKey a y

section
variable {n total k : Nat} {a : Arena} {w rest : List NodeIndex} {i j : NodeIndex} (hF : Forest n total a k w)
  (h : Round n a k w i j rest) (htotal : total < 2 ^ 32)
include hF h

/-- A child is a node made before the round, whose key the round keeps. -/
theorem Forest.nodeKey_child {p : Nat} {c : NodeIndex} (hn : n ≤ p) (hp : p < k + 1)
    (hc : IsChild (merged a k i j) p c.toNat) : nodeKey (merged a k i j) c = nodeKey a c := by
  refine Round.nodeKey_merged_of_ne (Nat.ne_of_lt ?_)
  obtain ⟨hp, hc⟩ | ⟨-, e | e⟩ := (isChild_merged_iff h hp).1 hc
  · exact (hF.child_lt hn hp hc).trans hp
  · exact e ▸ h.first_lt
  · exact e ▸ h.second_lt

include htotal

/-- Neither the members left nor the new node, over the two taken, have lesser keys than the second taken. -/
theorem Forest.second_key_lt {y : NodeIndex} (hy : y ∈ rest ++ [BitVec.ofNat 9 k]) :
    nodeKey a j < nodeKey (merged a k i j) y := by
  obtain hy | hy := h.mem_next_iff.1 hy
  · rw [Round.nodeKey_merged_of_ne (h.made y (h.mem_of_mem_rest hy)).ne]
    exact h.second y hy
  · refine nodeKey_lt_of_freq_le ?_ (hy ▸ h.second_lt)
    rw [hy, h.nodeAt_merged_self, (hF.freq_new h htotal).1]
    exact Nat.le_add_left _ _

theorem TakenInOrder.round (hO : TakenInOrder n a k w) :
    TakenInOrder n (merged a k i j) (k + 1) (rest ++ [BitVec.ofNat 9 k]) := by
  refine ⟨fun p q hn hpq hq c d hc hd => ?_, fun p hn hp c hc y hy => ?_⟩
  · rw [hF.nodeKey_child h hn (hpq.trans hq) hc, hF.nodeKey_child h (hn.trans hpq.le) hq hd]
    obtain ⟨hp, hc⟩ | ⟨hp, -⟩ := (isChild_merged_iff h (hpq.trans hq)).1 hc
    · obtain ⟨hq, hd⟩ | ⟨-, e | e⟩ := (isChild_merged_iff h hq).1 hd
      · exact hO.children p q hn hpq hq c d hc hd
      · exact hO.pending p hn hp c hc d (BitVec.eq_of_toNat_eq e ▸ h.mem_first)
      · exact hO.pending p hn hp c hc d (BitVec.eq_of_toNat_eq e ▸ h.mem_second)
    · omega
  · rw [hF.nodeKey_child h hn hp hc]
    refine lt_of_le_of_lt ?_ (hF.second_key_lt h htotal hy)
    obtain ⟨hp, hc⟩ | ⟨-, e | e⟩ := (isChild_merged_iff h hp).1 hc
    · exact (hO.pending p hn hp c hc j h.mem_second).le
    · exact BitVec.eq_of_toNat_eq e ▸ h.least.le
    · exact BitVec.eq_of_toNat_eq e ▸ le_rfl

end

theorem State.Inv.childrenInOrder_buildTree {s : State} (h : s.Inv) (h1 : 1 ≤ s.nleaf.toNat) :
    ChildrenInOrder s.nleaf.toNat s.buildTree.node s.buildTree.nnode.toNat := by
  obtain ⟨⟨-, hO⟩, -⟩ := buildTree_induction
    (P := fun a k w => Forest s.nleaf.toNat s.total.toNat a k w ∧ TakenInOrder s.nleaf.toNat a k w) h1
    h.counts.leaves_le ⟨h.forest, fun _ _ _ _ _ => by omega, fun _ _ _ => by omega⟩
    fun a k w i j rest hr ⟨hF, hO⟩ => ⟨hF.round hr s.total.isLt, hO.round hF hr s.total.isLt⟩
  exact hO.children

/-! Depths in a built tree -/

namespace State.Inv

variable {s : State} (h : s.Inv)
include h

/-- The code of a loaded symbol is the path to its leaf (10_state R31). -/
theorem follow_code {l : NodeIndex} (hl : l.toNat < s.nleaf.toNat)
    (hvalid : flagAt s.table.valid (nodeAt s.node l.toNat).sym = true) :
    follow s.node s.root (codeOf s.table (nodeAt s.node l.toNat).sym) = some l := by
  obtain ⟨⟨m, hm, hsym, hpath⟩, -⟩ := h.table.codes _ hvalid
  rwa [BitVec.eq_of_toNat_eq (h.leaves.distinct _ hm _ hl hsym)] at hpath

variable (hb : s.phase = .built)
include hb

/-- A node's frequency is the sum of its children's, so its key is greater than theirs. -/
theorem nodeKey_childOf_lt {p : NodeIndex} (hp : p.toNat < s.nnode.toNat)
    (hfork : (nodeAt s.node p.toNat).leaf = false) (d : Bool) :
    nodeKey s.node (childOf (nodeAt s.node p.toNat) d) < nodeKey s.node p := by
  obtain ⟨-, -, -, -, -, hsum⟩ := (h.tree hb).internal p.toNat (h.nleaf_le_of_fork hfork) hp
  refine nodeKey_lt_of_freq_le ?_ (h.childOf_lt hb hp hfork d)
  rw [hsum]
  cases d with
  | false => exact Nat.le_add_right _ _
  | true => exact Nat.le_add_left _ _

theorem lt_of_follow_root {m : NodeIndex} {ds : List Bool} (hpath : follow s.node s.root ds = some m) :
    m.toNat < s.nnode.toNat := by
  induction ds using List.reverseRecOn generalizing m with
  | nil =>
    cases hpath
    exact h.root_lt hb
  | append_singleton ds d ih =>
    obtain ⟨q, hq, hfork, rfl⟩ := follow_concat_eq_some hpath
    exact (h.childOf_lt hb (ih hq) hfork d).trans (ih hq)

theorem nodeKey_follow_root_le {m : NodeIndex} {ds : List Bool} (hpath : follow s.node s.root ds = some m) :
    nodeKey s.node m ≤ nodeKey s.node s.root := by
  induction ds using List.reverseRecOn generalizing m with
  | nil =>
    cases hpath
    exact le_rfl
  | append_singleton ds d ih =>
    obtain ⟨q, hq, hfork, rfl⟩ := follow_concat_eq_some hpath
    exact (h.nodeKey_childOf_lt hb (h.lt_of_follow_root hb hq) hfork d).le.trans (ih hq)

/-- Below the root every key is less than the root's. -/
theorem nodeKey_follow_root_lt {m : NodeIndex} {ds : List Bool} {d : Bool}
    (hpath : follow s.node s.root (ds ++ [d]) = some m) : nodeKey s.node m < nodeKey s.node s.root := by
  obtain ⟨q, hq, hfork, rfl⟩ := follow_concat_eq_some hpath
  exact (h.nodeKey_childOf_lt hb (h.lt_of_follow_root hb hq) hfork d).trans_le (h.nodeKey_follow_root_le hb hq)

/-- Of two internal nodes the one whose children have lesser keys has a lesser key itself. -/
theorem nodeKey_parent_le (hO : ChildrenInOrder s.nleaf.toNat s.node s.nnode.toNat) {p q : NodeIndex}
    (hp : p.toNat < s.nnode.toNat) (hq : q.toNat < s.nnode.toNat) (hpf : (nodeAt s.node p.toNat).leaf = false)
    (hqf : (nodeAt s.node q.toNat).leaf = false) {d e : Bool}
    (hkey : nodeKey s.node (childOf (nodeAt s.node p.toNat) d) ≤ nodeKey s.node (childOf (nodeAt s.node q.toNat) e)) :
    nodeKey s.node p ≤ nodeKey s.node q := by
  have hpn := h.nleaf_le_of_fork hpf
  have hqn := h.nleaf_le_of_fork hqf
  obtain hlt | heq | hgt := lt_trichotomy p.toNat q.toNat
  · obtain ⟨-, -, -, -, -, hpsum⟩ := (h.tree hb).internal p.toNat hpn hp
    obtain ⟨-, -, -, -, -, hqsum⟩ := (h.tree hb).internal q.toNat hqn hq
    refine (nodeKey_lt_of_freq_le ?_ hlt).le
    rw [hpsum, hqsum]
    exact Nat.add_le_add (freq_le_of_nodeKey_lt (hO _ _ hpn hlt hq _ _ (.inl rfl) (.inl rfl)))
      (freq_le_of_nodeKey_lt (hO _ _ hpn hlt hq _ _ (.inr rfl) (.inr rfl)))
  · rw [BitVec.eq_of_toNat_eq heq]
  · exact absurd hkey (not_le.2 (hO _ _ hqn hgt hp _ _ (isChild_childOf ..) (isChild_childOf ..)))

/-- Of two nodes the one with the greater key lies no deeper: their parents have keys in the same order. -/
theorem length_le_of_nodeKey_le (hO : ChildrenInOrder s.nleaf.toNat s.node s.nnode.toNat) {x y : NodeIndex}
    {ds es : List Bool} (hx : follow s.node s.root ds = some x) (hy : follow s.node s.root es = some y)
    (hkey : nodeKey s.node x ≤ nodeKey s.node y) : es.length ≤ ds.length := by
  induction ds using List.reverseRecOn generalizing es x y with
  | nil =>
    cases hx
    obtain rfl | ⟨es, e, rfl⟩ := es.eq_nil_or_concat
    · exact le_rfl
    · rw [List.concat_eq_append] at hy
      exact absurd hkey (not_le.2 (h.nodeKey_follow_root_lt hb hy))
  | append_singleton ds d ih =>
    obtain rfl | ⟨es, e, rfl⟩ := es.eq_nil_or_concat
    · exact Nat.zero_le _
    · rw [List.concat_eq_append] at hy
      obtain ⟨p, hp, hpf, rfl⟩ := follow_concat_eq_some hx
      obtain ⟨q, hq, hqf, rfl⟩ := follow_concat_eq_some hy
      have hpq := h.nodeKey_parent_le hb hO (h.lt_of_follow_root hb hp) (h.lt_of_follow_root hb hq) hpf hqf hkey
      simpa using ih hp hq hpq

end State.Inv

/-- Settles O51: GENCODES reads the codes off the tree BUILD made in the order of the keys, of which the frequency is
the first part. -/
theorem moreFrequentNeverLonger : Obligations.MoreFrequentNeverLonger := by
  intro s t u h hload hbuild hgen i j hi hj hfreq
  have h1 : 1 ≤ s.nleaf.toNat := by omega
  have hle := h.counts.leaves_le
  cases (exec_build_of_leaves hload h1).symm.trans hbuild
  obtain ⟨u', hgen', hu, htree, -, hvalid⟩ := (h.ended (exec_cases hbuild)).exists_exec_gencodes rfl
  cases hgen'.symm.trans hgen
  obtain ⟨hphase, hnleaf, hnnode, -, -, -, hnode⟩ := htree
  have hO : ChildrenInOrder u.nleaf.toNat u.node u.nnode.toNat := by
    rw [hnleaf, hnode, hnnode]
    exact h.childrenInOrder_buildTree h1
  have hleaf : ∀ l, l < s.nleaf.toNat → nodeAt u.node l = nodeAt s.node l := fun l hl => by
    rw [hnode]
    exact buildTree_frame h1 hle (.inl hl)
  have hindex : ∀ l, l < s.nleaf.toNat → (BitVec.ofNat 9 l).toNat = l := fun l hl => toNat_ofNat_index (by omega)
  have hcode : ∀ l, l < s.nleaf.toNat →
      follow u.node u.root (codeOf u.table (nodeAt s.node l).sym) = some (BitVec.ofNat 9 l) := fun l hl => by
    have hpath := hu.follow_code (l := BitVec.ofNat 9 l)
    have hcoded := hvalid l hl
    rw [hindex l hl, hleaf l hl, hnleaf] at hpath
    rw [← hnode, hleaf l hl] at hcoded
    exact hpath hl hcoded
  have hlen := hu.length_le_of_nodeKey_le hphase hO (hcode j hj) (hcode i hi) (le_of_lt ?_)
  · simpa [codeOf] using hlen
  · rw [nodeKey, nodeKey, Prod.Lex.toLex_lt_toLex, hindex i hi, hindex j hj, hleaf i hi, hleaf j hj]
    exact .inl hfreq

end Sys2Proof.Machine
end

section
/-!
PROOFS. What a response can depend on (10_state R42): two states that agree on the architectural state answer every
command alike, and agree again.
-/

namespace Sys2Proof.Machine

/-! BUILD reads the arena below the next index alone (40_builder R113) -/

theorem leastOf_congr {a b : Arena} {m : NodeIndex} {w : List NodeIndex}
    (h : ∀ x ∈ m :: w, nodeAt a x.toNat = nodeAt b x.toNat) : leastOf a m w = leastOf b m w := by
  induction w using List.reverseRecOn with
  | nil => rfl
  | append_singleton w x ih =>
    have hw : leastOf a m w = leastOf b m w := ih fun y hy => h y (List.mem_append_left [x] hy)
    have hmem : leastOf b m w ∈ m :: (w ++ [x]) := List.mem_append_left [x] (leastOf_mem b m w)
    rw [leastOf_concat, leastOf_concat, hw, keyLt_congr (h x (by simp)) (h _ hmem)]

theorem merged_congr {a b : Arena} {k : Nat} (h : ∀ p, p < k → nodeAt a p = nodeAt b p) {i j : NodeIndex}
    (hi : i.toNat < k) (hj : j.toNat < k) (hk : k < 511) {p : Nat} (hp : p < k + 1) :
    nodeAt (merged a k i j) p = nodeAt (merged b k i j) p := by
  obtain hp | rfl := Nat.lt_succ_iff_lt_or_eq.1 hp
  · rw [Round.nodeAt_merged_of_ne hp.ne, Round.nodeAt_merged_of_ne hp.ne, h p hp]
  · rw [merged, merged, nodeAt_setNode_self _ _ _ hk, nodeAt_setNode_self _ _ _ hk, internalNode, internalNode,
      h _ hi, h _ hj]

/-- Over arenas that agree on the nodes made, the same working set is merged alike. -/
theorem naiveMerge_congr (fuel : Nat) {a b : Arena} {w : List NodeIndex} {k : Nat} (hmade : ∀ x ∈ w, x.toNat < k)
    (hroom : k + w.length ≤ 512) (h : ∀ p, p < k → nodeAt a p = nodeAt b p) :
    (naiveMerge fuel a w k).2 = (naiveMerge fuel b w k).2 ∧
      ∀ p, p < (naiveMerge fuel a w k).2.2 →
        nodeAt (naiveMerge fuel a w k).1 p = nodeAt (naiveMerge fuel b w k).1 p := by
  induction fuel generalizing a b w k with
  | zero => exact ⟨rfl, h⟩
  | succ fuel ih =>
    match w with
    | [] | [_] => exact ⟨rfl, h⟩
    | x :: y :: tail =>
      obtain ⟨z, zs, hothers⟩ := List.exists_cons_of_length_eq_add_one (n := tail.length)
        (by simpa using List.length_erase_of_mem (leastOf_mem a x (y :: tail)))
      have hmade' : ∀ u ∈ z :: zs, u.toNat < k := fun u hu => hmade u (List.mem_of_mem_erase (hothers ▸ hu))
      have hfirst : leastOf a x (y :: tail) = leastOf b x (y :: tail) := leastOf_congr fun u hu => h _ (hmade u hu)
      have hsecond : leastOf a z zs = leastOf b z zs := leastOf_congr fun u hu => h _ (hmade' u hu)
      obtain ⟨hzs, hlen⟩ := length_round hothers
      simp only [List.length_cons] at hroom
      rw [naiveMerge_round fuel a k hothers, naiveMerge_round fuel b k (hfirst ▸ hothers), ← hfirst, ← hsecond]
      refine ih (fun u hu => ?_) (by simp only [List.length_append, List.length_singleton]; omega) fun p hp => ?_
      · obtain hu | hu := List.mem_append.1 hu
        · exact (hmade' u (List.mem_of_mem_erase hu)).trans (Nat.lt_succ_self k)
        · rw [List.mem_singleton.1 hu]
          exact (Nat.mod_le k 512).trans_lt (Nat.lt_succ_self k)
      · exact merged_congr h (hmade _ (leastOf_mem ..)) (hmade' _ (leastOf_mem ..)) (by omega) hp

/-- BUILD's tree is that of the naive form (40_builder R113). -/
theorem State.Inv.naiveBuild_eq {s : State} (h : s.Inv) (hload : s.phase = .loading) (h1 : 1 ≤ s.nleaf.toNat) :
    (naiveBuild s).2 = ([s.buildTree.root], s.buildTree.nnode.toNat) ∧
      ∀ p, p < s.buildTree.nnode.toNat → nodeAt (naiveBuild s).1 p = nodeAt s.buildTree.node p := by
  obtain ⟨t, hexec, hroot, hnnode, hnode⟩ := buildIsNaiveMerge s h hload h1
  cases (exec_build_of_leaves hload h1).symm.trans hexec
  exact ⟨Prod.ext hroot hnnode, hnode⟩

/-! Commands that answer alike (10_state R42) -/

/-- Two outcomes that offer the same response and agree on the architectural state. -/
inductive Alike : Result → Result → Prop
  | answered {s t : State} (h : ArchEq s t) (rsp data : Word) :
      Alike (.next (s.answered rsp data)) (.next (t.answered rsp data))

theorem Alike.exists_next {r q : Result} {s' : State} (h : Alike r q) (hr : r = .next s') :
    ∃ t', q = .next t' ∧ t'.chan.rsp = s'.chan.rsp ∧ t'.chan.data = s'.chan.data ∧ ArchEq s' t' := by
  subst hr
  cases h with
  | answered h => exact ⟨_, rfl, rfl, rfl, { h with phase := h.phase }⟩

theorem alike_ite {c : Prop} [Decidable c] {r q r' q' : Result} (h : c → Alike r q) (h' : ¬ c → Alike r' q') :
    Alike (if c then r else r') (if c then q else q') := by
  split_ifs with hc
  · exact h hc
  · exact h' hc

/-- CLEAR leaves no node below `NNODE` and no valid code, so nothing to differ in (43_system R181). -/
theorem archEq_cleared (s t : State) : ArchEq s.cleared t.cleared :=
  ⟨rfl, rfl, rfl, rfl, rfl, rfl, fun i hi => absurd hi (Nat.not_lt_zero i), rfl, rfl, fun sym hv => by simp at hv, rfl,
    rfl⟩

namespace ArchEq

variable {s t : State} (h : ArchEq s t)
include h

theorem respond (m : Mnemonic) (d : Word) : Alike (Machine.respond m d s) (Machine.respond m d t) := .answered h _ _

theorem raise (m : Mnemonic) (e : ErrorCode) : Alike (Machine.raise m e s) (Machine.raise m e t) := .answered h _ _

/-! The commands that read (41_codegen R135, R137, 43_system R183, R184, R185) -/

theorem codeEntry_eq (sym : Symbol) : codeEntry sym s = codeEntry sym t := by
  rw [codeEntry, codeEntry, ← h.tv, ← h.valid]
  split_ifs with hc
  · obtain ⟨-, hvalid⟩ := Bool.and_eq_true_iff.1 hc
    obtain ⟨hlen, hbits⟩ := h.codes sym hvalid
    rw [hlen, hbits]
  · rfl

theorem validNode_eq (idx : NodeIndex) : validNode idx s = validNode idx t := by
  rw [validNode, validNode, ← h.nnode]
  split_ifs with hc
  · rfl
  · rw [h.nodes _ (Nat.not_le.1 hc)]

theorem alike_read {i : Instr} (hi : i.mnemonic ∈ [Mnemonic.lookup, .readcode, .nodefreq, .nodelink, .info]) :
    Alike (exec i s) (exec i t) := by
  cases i with
  | lookup | readcode =>
    simp only [exec, execLookup, execReadcode, ← h.codeEntry_eq]
    split
    · exact h.raise ..
    · exact h.respond ..
  | nodefreq | nodelink | info =>
    simp only [exec, execNodefreq, execNodelink, execInfo, ← h.validNode_eq, ← h.infoRegister_eq]
    split
    · exact h.respond ..
    · exact h.raise ..
  | _ => simp [Instr.mnemonic] at hi

/-! The decoder (42_decoder R151, R153, R155, R157, R162) -/

theorem setCursor (n : NodeIndex) : ArchEq (s.setCursor n) (t.setCursor n) :=
  { h with cursor := rfl }

theorem setDstate (d : DecoderState) : ArchEq (s.setDstate d) (t.setDstate d) :=
  { h with dstate := rfl }

section
variable (hs : s.Inv) (hb : s.phase = .built)
include hs hb

theorem rootNode_eq : rootNode s = rootNode t := by
  rw [rootNode, rootNode, ← h.root]
  exact h.nodes _ (hs.root_lt hb)

/-- The walk reads the cursor's node and the child it leads to, both below `NNODE`. -/
theorem alike_walkStep (ha : s.dstate = .active) (hroot : (rootNode s).leaf = false) (m : Mnemonic) (dir : Bool) :
    Alike (walkStep m dir s) (walkStep m dir t) := by
  obtain ⟨-, -, hcursor⟩ := hs.cursor_fork hb ha hroot
  have hnext : nextIndex s dir = nextIndex t dir := by rw [nextIndex, nextIndex, ← h.cursor, h.nodes _ hcursor]
  rw [walkStep, walkStep, ← hnext, ← h.nodes _ (hs.nextIndex_lt hb ha hroot dir), ← h.root]
  exact alike_ite (fun _ => (h.setCursor _).respond ..) fun _ => (h.setCursor _).respond ..

end

theorem alike_decoder {i : Instr} (hs : s.Inv)
    (hi : i.mnemonic ∈ [Mnemonic.decstart, .decbit, .decraw, .decroot, .decend]) : Alike (exec i s) (exec i t) := by
  by_cases hb : s.phase = .built
  case neg =>
    rw [exec_decoder_of_not_built rfl hi hb, exec_decoder_of_not_built rfl hi (h.phase ▸ hb)]
    exact .answered h _ _
  have hb' : t.phase = .built := h.phase ▸ hb
  cases i with
  | decstart =>
    rw [exec, exec, execDecstart, execDecstart, if_neg (not_not.2 hb), if_neg (not_not.2 hb'), ← h.root]
    exact ((h.setCursor _).setDstate _).respond ..
  | decbit ch =>
    rw [exec, exec, execDecbit, execDecbit, ← h.phase, ← h.dstate, ← h.rootNode_eq hs hb]
    refine alike_ite (fun _ => h.raise ..) fun _ => alike_ite (fun _ => h.raise ..) fun ha =>
      alike_ite (fun _ => h.raise ..) fun hroot => ?_
    cases digitOfChar ch with
    | none => exact (h.setDstate _).raise ..
    | some dir => exact h.alike_walkStep hs hb (not_not.1 ha) (Bool.eq_false_iff.2 hroot) ..
  | decraw bit =>
    rw [exec, exec, execDecraw, execDecraw, ← h.phase, ← h.dstate, ← h.rootNode_eq hs hb]
    exact alike_ite (fun _ => h.raise ..) fun _ => alike_ite (fun _ => h.raise ..) fun ha =>
      alike_ite (fun _ => h.raise ..) fun hroot =>
        h.alike_walkStep hs hb (not_not.1 ha) (Bool.eq_false_iff.2 hroot) ..
  | decroot =>
    rw [exec, exec, execDecroot, execDecroot, ← h.phase, ← h.dstate, ← h.rootNode_eq hs hb]
    exact alike_ite (fun _ => h.raise ..) fun _ => alike_ite (fun _ => h.raise ..) fun _ =>
      alike_ite (fun _ => h.respond ..) fun _ => h.raise ..
  | decend =>
    rw [exec, exec, execDecend, execDecend, ← h.phase, ← h.dstate, ← h.cursor, ← h.root]
    exact alike_ite (fun _ => h.raise ..) fun _ => alike_ite (fun _ => h.raise ..) fun _ =>
      alike_ite (fun _ => (h.setDstate _).raise ..) fun _ => (h.setDstate _).respond ..
  | _ => simp [Instr.mnemonic] at hi

/-! The builder (40_builder R101, R110) -/

variable (hs : s.Inv) (ht : t.Inv)
include hs

theorem addLeaf {sym : Symbol} (hload : s.phase = .loading) (hseen : flagAt s.seen sym = false) (count : Freq) :
    ArchEq (s.addLeaf sym count) (t.addLeaf sym count) := by
  obtain ⟨hnnode, -⟩ := hs.counts.loading hload
  have hle := hs.nleaf_le_of_unseen hseen
  refine ⟨h.phase, congrArg (· + 1) h.nleaf, congrArg (· + 1) h.nnode, congrArg (· + count) h.total, h.root,
    congrArg (setFlag · sym) h.seen, fun i hi => ?_, h.tv, h.valid, h.codes, h.dstate, h.cursor⟩
  have hi : i < (s.addLeaf sym count).nleaf.toNat := by rwa [State.addLeaf_nnode, hnnode] at hi
  rw [State.addLeaf_node, State.addLeaf_node, ← h.nleaf]
  obtain ⟨hi, -⟩ | ⟨rfl, -⟩ := hs.nodeAt_addLeaf hseen count hi
  · rw [nodeAt_setNode_of_ne _ _ _ _ hi.ne', nodeAt_setNode_of_ne _ _ _ _ hi.ne', h.nodes i (hnnode ▸ hi)]
  · rw [nodeAt_setNode_self _ _ _ (by omega), nodeAt_setNode_self _ _ _ (by omega)]

theorem alike_load (sym : Symbol) (count : Freq) : Alike (execLoad sym count s) (execLoad sym count t) := by
  rw [execLoad, execLoad, ← h.phase, ← h.seen, ← h.total, ← h.nleaf]
  refine alike_ite (fun _ => h.raise ..) fun hload => alike_ite (fun _ => h.raise ..) fun _ =>
    alike_ite (fun _ => h.raise ..) fun hseen => alike_ite (fun _ => h.raise ..) fun _ => ?_
  exact (h.addLeaf hs (not_not.1 hload) (Bool.eq_false_iff.2 hseen) count).respond ..

include ht

theorem buildTree (hload : s.phase = .loading) (h1 : 1 ≤ s.nleaf.toNat) : ArchEq s.buildTree t.buildTree := by
  have hle := hs.counts.leaves_le
  obtain ⟨hnnode, -⟩ := hs.counts.loading hload
  obtain ⟨hs2, hsnode⟩ := hs.naiveBuild_eq hload h1
  obtain ⟨ht2, htnode⟩ := ht.naiveBuild_eq (h.phase ▸ hload) (h.nleaf ▸ h1)
  obtain ⟨heq, hnode⟩ := naiveMerge_congr s.nleaf.toNat (a := s.node) (b := t.node) (k := s.nleaf.toNat)
    (w := (List.range s.nleaf.toNat).map (BitVec.ofNat 9)) (atSet_leaves s hle).made (by simp; omega)
    fun p hp => h.nodes p (hnnode ▸ hp)
  have hsn : naiveBuild s = naiveMerge s.nleaf.toNat s.node ((List.range s.nleaf.toNat).map (BitVec.ofNat 9))
      s.nleaf.toNat := rfl
  have htn : naiveBuild t = naiveMerge s.nleaf.toNat t.node ((List.range s.nleaf.toNat).map (BitVec.ofNat 9))
      s.nleaf.toNat := by rw [naiveBuild, ← h.nleaf]
  rw [← hsn, ← htn] at heq hnode
  rw [hs2, ht2, Prod.mk.injEq, List.cons.injEq] at heq
  rw [hs2] at hnode
  obtain ⟨⟨hroot, -⟩, hcount⟩ := heq
  refine ⟨rfl, h.nleaf, BitVec.eq_of_toNat_eq hcount, h.total, hroot, h.seen, fun i hi => ?_, h.tv, h.valid, h.codes,
    h.dstate, h.cursor⟩
  rw [← hsnode i hi, hnode i hi, htnode i (hcount ▸ hi)]

theorem alike_build : Alike (execBuild s) (execBuild t) := by
  rw [execBuild, execBuild, ← h.phase, ← h.nleaf]
  refine alike_ite (fun _ => h.raise ..) fun hload => alike_ite (fun _ => h.raise ..) fun hleaf => ?_
  have hbuild := h.buildTree hs ht (not_not.1 hload) (one_le_toNat_of_ne_zero hleaf)
  rw [← hbuild.root]
  exact hbuild.respond ..

end ArchEq

/-! GENCODES (41_codegen R130) -/

/-- A tree is read at its nodes alone, none above the top. -/
theorem Unfolds.congr {a b : Arena} {n : NodeIndex} {t : SubTree} (h : Unfolds a n t)
    (hab : ∀ i, i ≤ n.toNat → nodeAt a i = nodeAt b i) : Unfolds b n t := by
  induction h with
  | leaf hleaf => exact .leaf (hab _ le_rfl ▸ hleaf)
  | @fork n left right hfork hleft hright _ _ ihl ihr =>
    have hl := ihl fun i hi => hab i (hi.trans hleft.le)
    have hr := ihr fun i hi => hab i (hi.trans hright.le)
    rw [hab _ le_rfl] at hfork hleft hright hl hr
    exact .fork hfork hleft hright hl hr

theorem recordAll_congr {a b : Arena} (t : CodeTable) {paths : List (NodeIndex × List Bool)}
    (h : ∀ path ∈ paths, nodeAt a path.1.toNat = nodeAt b path.1.toNat) : recordAll a t paths = recordAll b t paths :=
  List.foldl_ext _ _ _ fun t path hpath => by rw [h path hpath]

/-- Recording over a table with no valid entries leaves valid entries that do not depend on it. -/
theorem entryAt_recordAll_invalidated (a : Arena) {paths : List (NodeIndex × List Bool)}
    (hlen : ∀ path ∈ paths, path.2.length < 256) (t u : CodeTable) (sym : Symbol) :
    entryAt (recordAll a t.invalidated paths) sym = entryAt (recordAll a u.invalidated paths) sym ∨
      (flagAt (recordAll a t.invalidated paths).valid sym = false ∧
        flagAt (recordAll a u.invalidated paths).valid sym = false) := by
  obtain ⟨path, -, -, hentry⟩ | ⟨-, hentry⟩ := entryAt_recordAll a sym paths hlen
  · exact .inl ((hentry _).trans (hentry _).symm)
  · exact .inr ⟨(entryAt_eq_iff.1 ((hentry _).trans (entryAt_invalidated t sym))).1,
      (entryAt_eq_iff.1 ((hentry _).trans (entryAt_invalidated u sym))).1⟩

theorem eq_of_flagAt_eq {v w : Vector Bool 256} (h : ∀ sym, flagAt v sym = flagAt w sym) : v = w :=
  Vector.ext fun i hi => by simpa [flagAt, Nat.mod_eq_of_lt hi] using h (BitVec.ofNat 8 i)

namespace ArchEq

variable {s t : State} (h : ArchEq s t)
include h

/-- The same leaves are recorded from both states, since the trees agree. -/
theorem exists_traverse_eq (hs : s.Inv) (hb : s.phase = .built) :
    ∃ paths w v, (∀ path ∈ paths, path.2.length < 256) ∧
      traverse s = some (w, recordAll s.node s.table.invalidated paths) ∧
      traverse t = some (v, recordAll s.node t.table.invalidated paths) := by
  obtain ⟨hpos, hnnode, hroot⟩ := hs.counts.built hb
  have hle := hs.counts.leaves_le
  obtain ⟨tree, htree, hheight⟩ := hs.exists_unfolds hb s.root (hs.root_lt hb)
  have hsize : tree.nodes.length = s.nnode.toNat := (hs.nodes_perm_range hb htree).length_eq.trans List.length_range
  have hlow : ∀ i, i ≤ s.root.toNat → nodeAt s.node i = nodeAt t.node i := fun i hi => h.nodes i (by omega)
  have htree' : Unfolds t.node t.root tree := h.root ▸ htree.congr hlow
  obtain ⟨w, hw⟩ := traverse_eq_recordAll htree (by omega) (by omega)
  obtain ⟨v, hv⟩ := traverse_eq_recordAll htree' (by omega) (by omega)
  refine ⟨tree.paths [], w, v, fun path hpath => ?_, hw, hv.trans ?_⟩
  · obtain ⟨-, -, q, hq, -, hlen⟩ := htree.follow_of_mem_paths hpath
    rw [hq, List.nil_append]
    omega
  · rw [recordAll_congr (a := s.node) (b := t.node) _ fun path hpath => ?_]
    · rfl
    · obtain ⟨-, hmem, -⟩ := htree.follow_of_mem_paths hpath
      exact hlow _ (htree.le_of_mem_nodes hmem)

theorem alike_gencodes (hs : s.Inv) : Alike (exec .gencodes s) (exec .gencodes t) := by
  by_cases hb : s.phase = .built
  · obtain ⟨paths, w, v, hlen, hw, hv⟩ := h.exists_traverse_eq hs hb
    rw [exec_gencodes_of_traverse hb hw, exec_gencodes_of_traverse (h.phase ▸ hb) hv, ← h.nleaf]
    have hentry := entryAt_recordAll_invalidated s.node hlen s.table t.table
    refine .answered (s := s.withCodes _) (t := t.withCodes _) ⟨h.phase, h.nleaf, h.nnode, h.total, h.root, h.seen,
      h.nodes, rfl, eq_of_flagAt_eq fun sym => ?_, fun sym hvalid => ?_, h.dstate, h.cursor⟩ _ _
    · obtain he | ⟨hs, ht⟩ := hentry sym
      · exact congrArg Prod.fst he
      · exact hs.trans ht.symm
    · obtain he | ⟨hs, -⟩ := hentry sym
      · exact Prod.mk.inj (congrArg Prod.snd he)
      · exact absurd hvalid (Bool.eq_false_iff.1 hs)
  · rw [exec_gencodes_of_not_built hb, exec_gencodes_of_not_built (h.phase ▸ hb)]
    exact .answered h _ _

end ArchEq

/-- Settles O59: command by command, each reads the architectural state alone. -/
theorem internalStateUnobservable : Obligations.InternalStateUnobservable := by
  intro i s t s' hs ht h hexec
  refine Alike.exists_next ?_ hexec
  cases i with
  | nop => exact h.respond ..
  | clear => exact (archEq_cleared s t).respond ..
  | load sym count => exact h.alike_load hs sym count
  | build => exact h.alike_build hs ht
  | gencodes => exact h.alike_gencodes hs
  | lookup | readcode | nodefreq | nodelink | info => exact h.alike_read (by simp [Instr.mnemonic])
  | decstart | decbit | decraw | decroot | decend => exact h.alike_decoder hs (by simp [Instr.mnemonic])

end Sys2Proof.Machine
end

section
/-!
PROOFS. The encoding (30_encoding R82 to R92): every command has one command word, and every line of one the words of
its command.
-/

namespace Sys2Proof

/-! The words of a command -/

/-- A word decodes to a command exactly if it is the command's word, and for LOAD its argument is the count
(30_encoding R83, R84, R88). -/
theorem decode_eq_ok_iff_encode (i : Instr) (w arg : Word) :
    decode w arg = .ok i ↔ w = (encode i).1 ∧ (i.mnemonic = .load → arg = (encode i).2) := by
  cases i with
  | load sym count =>
    exact (Machine.decode_eq_load_iff w arg sym count).trans (and_congr_right fun _ => ⟨fun h _ => h, fun h => h rfl⟩)
  | lookup sym => exact (decode_eq_lookup_iff w arg sym).trans (and_iff_left nofun).symm
  | readcode sym k => exact (decode_eq_readcode_iff w arg sym k).trans (and_iff_left nofun).symm
  | nodefreq idx => exact (decode_eq_nodefreq_iff w arg idx).trans (and_iff_left nofun).symm
  | nodelink idx => exact (decode_eq_nodelink_iff w arg idx).trans (and_iff_left nofun).symm
  | info sel => exact (decode_eq_info_iff w arg sel).trans (and_iff_left nofun).symm
  | decbit ch => exact (decode_eq_decbit_iff w arg ch).trans (and_iff_left nofun).symm
  | decraw bit => exact (decode_eq_decraw_iff w arg bit).trans (and_iff_left nofun).symm
  | nop | clear | build | gencodes | decstart | decroot | decend =>
    exact (decode_eq_ok_iff_of_format_n rfl w arg).trans (and_iff_left nofun).symm

theorem decode_encode (i : Instr) : decode (encode i).1 (encode i).2 = .ok i :=
  (decode_eq_ok_iff_encode i _ _).2 ⟨rfl, fun _ => rfl⟩

/-- Settles O2: the words by the command's one word, the bytes by the words they give back. -/
theorem decodeUndoesEncode : Obligations.DecodeUndoesEncode := by
  refine fun i _ => ⟨decode_encode i, fun rest => ?_⟩
  simp only [encodeBytes, bytesOfWord, List.cons_append, List.nil_append, decodeBytes, wordOfBytes_bytesOfWord,
    decode_encode]

/-- Settles O3: the word that decodes to a command is the command's word. -/
theorem decodedWordIsItsEncoding : Obligations.DecodedWordIsItsEncoding := by
  intro cmd arg i h
  obtain ⟨hword, harg⟩ := (decode_eq_ok_iff_encode i cmd arg).1 h
  exact ⟨hword.symm, fun hload => (harg hload).symm⟩

/-- Settles O1: each word is that of its command, or has a reserved bit or opcode. -/
theorem specWordsDecode : Obligations.SpecWordsDecode := by
  unfold Obligations.SpecWordsDecode
  decide

/-! The opcode table -/

open Machine

/-- The row of a mnemonic: its opcode matched, and its reserved bits 0 (30_encoding R88). -/
def opcodeRow (m : Mnemonic) : Mnemonic × Word × Word := (m, m.opcode ++ 0#24, 0xFF#8 ++ reservedMask m.format)

theorem opcodeRows_eq : opcodeRows = allMnemonics.map opcodeRow := by decide

theorem mem_opcodeRows (m : Mnemonic) : opcodeRow m ∈ opcodeRows := by
  rw [opcodeRows_eq]
  exact List.mem_map_of_mem (by cases m <;> decide)

theorem mem_opcodeRows_iff {row : Mnemonic × Word × Word} : row ∈ opcodeRows ↔ row = opcodeRow row.1 := by
  refine ⟨fun h => ?_, fun h => h ▸ mem_opcodeRows _⟩
  rw [opcodeRows_eq] at h
  obtain ⟨m, -, rfl⟩ := List.mem_map.1 h
  rfl

theorem bitVec_append_eq_append_iff {n w : Nat} {a c : BitVec n} {b d : BitVec w} :
    a ++ b = c ++ d ↔ a = c ∧ b = d := by
  refine ⟨fun h => ⟨?_, ?_⟩, fun ⟨hl, hr⟩ => hl ▸ hr ▸ rfl⟩
  · rw [← BitVec.extractLsb'_append_eq_left (a := a) (b := b), h, BitVec.extractLsb'_append_eq_left]
  · rw [← BitVec.extractLsb'_append_eq_right (a := a) (b := b), h, BitVec.extractLsb'_append_eq_right]

/-- A word matches a row exactly if it has the row's opcode and no reserved bit set (30_encoding R88). -/
theorem matches_opcodeRow_iff (m : Mnemonic) (cmd : Word) :
    cmd &&& (opcodeRow m).2.2 = (opcodeRow m).2.1 ↔
      opcodeField cmd = m.opcode ∧ operandField cmd &&& reservedMask m.format = 0 := by
  rw [← opcode_append_operand cmd]
  show ((opcodeField cmd ++ operandField cmd) &&& (BitVec.allOnes 8 ++ reservedMask m.format) : BitVec (8 + 24)) =
    m.opcode ++ 0#24 ↔ _
  rw [BitVec.and_append, BitVec.and_allOnes, bitVec_append_eq_append_iff, opcode_append_operand]
  rfl

/-- The decoder reads a command of a mnemonic exactly there (30_encoding R88). -/
theorem exists_decode_iff (m : Mnemonic) (cmd arg : Word) :
    (∃ i, decode cmd arg = .ok i ∧ i.mnemonic = m) ↔
      opcodeField cmd = m.opcode ∧ operandField cmd &&& reservedMask m.format = 0 := by
  constructor
  · rintro ⟨i, h, rfl⟩
    obtain ⟨m, hopc, hres, rfl⟩ := decode_ok h
    rw [mnemonic_withFields]
    exact ⟨hopc.symm, hres⟩
  · rintro ⟨hopc, hres⟩
    have h := decode_opcode_append m (operandField cmd) arg
    rw [if_pos hres, ← hopc] at h
    have hcmd : (opcodeField cmd ++ operandField cmd : BitVec (8 + 24)) = cmd := opcode_append_operand cmd
    exact ⟨_, hcmd ▸ h, mnemonic_withFields ..⟩

theorem opcode_injective {m m' : Mnemonic} (h : m.opcode = m'.opcode) : m = m' := by
  have := congrArg mnemonicOf h
  simpa using this

/-- Settles O4: the rows are those of the decoder, and different mnemonics have different opcodes. -/
theorem decodesExactlyTheOpcodeTable : Obligations.DecodesExactlyTheOpcodeTable := by
  refine ⟨fun cmd arg m => (exists_decode_iff m cmd arg).trans ((matches_opcodeRow_iff m cmd).symm.trans ?_), ?_⟩
  · constructor
    · exact fun h => ⟨_, mem_opcodeRows m, rfl, h⟩
    · rintro ⟨row, hrow, rfl, h⟩
      rwa [mem_opcodeRows_iff.1 hrow] at h
  · rw [opcodeRows_eq, List.pairwise_map]
    have hnodup : allMnemonics.Nodup := by decide
    refine hnodup.imp fun {m m'} hne cmd => ?_
    rw [matches_opcodeRow_iff, matches_opcodeRow_iff]
    exact fun ⟨⟨h, _⟩, ⟨h', _⟩⟩ => hne (opcode_injective (h.symm.trans h'))

/-! `ARG` (30_encoding R84) -/

theorem withFields_arg {m : Mnemonic} (h : m ≠ .load) (cmd a b : Word) : withFields m cmd a = withFields m cmd b := by
  cases m with
  | load => exact absurd rfl h
  | _ => rfl

/-- Settles O5: the fields of every mnemonic but LOAD are those of `CMD`, and the opcode tells LOAD. -/
theorem onlyLoadReadsArg : Obligations.OnlyLoadReadsArg := by
  refine ⟨fun cmd a b hopc => ?_, fun cmd a i hopc h => ?_⟩
  · rw [decode, decode]
    cases hm : mnemonicOf (opcodeField cmd) with
    | none => rfl
    | some m =>
      have hload : m ≠ .load := fun e => hopc (opcode_of_mnemonicOf (e ▸ hm)).symm
      simp only [withFields_arg hload cmd a b]
  · obtain ⟨m, hm, -, rfl⟩ := decode_ok h
    obtain rfl : m = .load := opcode_injective (hm.trans hopc)
    rfl

end Sys2Proof

namespace Sys2Proof.Machine

/-! Words that are no command (30_encoding R88, R89) -/

theorem step_of_perform {s : State} (hrst : s.pins.rst = false) (hbusy : s.chan.busy = true) (hwait : s.chan.wait = 0) :
    step s = runCommand s.popPins := by
  simp [step, edgeAction, hrst, hbusy, hwait]

/-- Settles O6: a word the decoder reads as a command matches the row of its mnemonic, so this one is none. -/
theorem reservedWordIsIllegalCommand : Obligations.ReservedWordIsIllegalCommand := by
  intro s hrst hbusy hwait hrows
  have hnone : ∀ i, s.popPins.fetched ≠ .ok i := fun i hi =>
    hrows _ (mem_opcodeRows i.mnemonic) ((matches_opcodeRow_iff _ _).2 ((exists_decode_iff _ _ _).1 ⟨i, hi, rfl⟩))
  have hrsp : responseWord (opcodeField s.chan.cmd) .illegalCommand =
      (opcodeField s.chan.cmd ++ 0x00000C#24 : BitVec (8 + 24)) := by
    show (opcodeField s.chan.cmd ++ 0#20 ++ 12#4 : BitVec (8 + 20 + 4)) = _
    rw [BitVec.append_assoc]
    rfl
  rw [step_of_perform hrst hbusy hwait, runCommand_of_not_fetched hnone, reply_eq_answered, State.popPins_chan_cmd,
    hrsp]
  rfl

/-! The assembler (30_encoding R91, R92) -/

/-- The line a command is written as assembles to the command. -/
theorem toInstr_toLine (i : Instr) : i.toLine.toInstr = some i := by
  cases i with
  | nop => exact Laws.LineForm.nop.2
  | clear => exact Laws.LineForm.clear.2
  | load sym count => exact (Laws.LineForm.load sym count).2
  | build => exact Laws.LineForm.build.2
  | gencodes => exact Laws.LineForm.gencodes.2
  | lookup sym => exact (Laws.LineForm.lookup sym).2
  | readcode sym k => exact (Laws.LineForm.readcode sym k).2
  | nodefreq idx => exact (Laws.LineForm.nodefreq idx).2
  | nodelink idx => exact (Laws.LineForm.nodelink idx).2
  | info sel => exact (Laws.LineForm.info sel).2
  | decstart => exact Laws.LineForm.decstart.2
  | decbit ch => exact (Laws.LineForm.decbit ch).2
  | decraw bit => exact (Laws.LineForm.decraw bit).2
  | decroot => exact Laws.LineForm.decroot.2
  | decend => exact Laws.LineForm.decend.2

theorem eq_nil_of_operandsFit {vs : List Nat} (h : operandsFit [] vs = true) : vs = [] := by
  cases vs with
  | nil => rfl
  | cons => cases h

/-- An operand that fits its field is the number of a bit vector of the field's width. -/
theorem eq_cons_of_operandsFit {w : Nat} {ws vs : List Nat} (h : operandsFit (w :: ws) vs = true) :
    ∃ (x : BitVec w) (vs' : List Nat), vs = x.toNat :: vs' ∧ operandsFit ws vs' = true := by
  cases vs with
  | nil => cases h
  | cons v vs =>
    obtain ⟨hv, hrest⟩ := Bool.and_eq_true_iff.1 h
    exact ⟨BitVec.ofNat w v, vs, congrArg (· :: vs) (Nat.mod_eq_of_lt (of_decide_eq_true hv)).symm, hrest⟩

theorem eq_singleton_of_operandsFit {w : Nat} {vs : List Nat} (h : operandsFit [w] vs = true) :
    ∃ x : BitVec w, vs = [x.toNat] := by
  obtain ⟨x, vs, rfl, hrest⟩ := eq_cons_of_operandsFit h
  exact ⟨x, congrArg (_ :: ·) (eq_nil_of_operandsFit hrest)⟩

theorem eq_pair_of_operandsFit {v w : Nat} {vs : List Nat} (h : operandsFit [v, w] vs = true) :
    ∃ (x : BitVec v) (y : BitVec w), vs = [x.toNat, y.toNat] := by
  obtain ⟨x, vs, rfl, hrest⟩ := eq_cons_of_operandsFit h
  obtain ⟨y, rfl⟩ := eq_singleton_of_operandsFit hrest
  exact ⟨x, y, rfl⟩

/-- A well-formed line is the line of a command (30_encoding R83, R84, R91). -/
theorem exists_toLine_eq {l : Line} (h : l.wellFormed = true) : ∃ i : Instr, i.toLine = l := by
  obtain ⟨m, vs⟩ := l
  cases m with
  | nop => exact ⟨.nop, congrArg (Line.mk _) (eq_nil_of_operandsFit h).symm⟩
  | clear => exact ⟨.clear, congrArg (Line.mk _) (eq_nil_of_operandsFit h).symm⟩
  | build => exact ⟨.build, congrArg (Line.mk _) (eq_nil_of_operandsFit h).symm⟩
  | gencodes => exact ⟨.gencodes, congrArg (Line.mk _) (eq_nil_of_operandsFit h).symm⟩
  | decstart => exact ⟨.decstart, congrArg (Line.mk _) (eq_nil_of_operandsFit h).symm⟩
  | decroot => exact ⟨.decroot, congrArg (Line.mk _) (eq_nil_of_operandsFit h).symm⟩
  | decend => exact ⟨.decend, congrArg (Line.mk _) (eq_nil_of_operandsFit h).symm⟩
  | lookup => exact (eq_singleton_of_operandsFit h).imp' Instr.lookup fun _ hx => congrArg (Line.mk _) hx.symm
  | nodefreq => exact (eq_singleton_of_operandsFit h).imp' Instr.nodefreq fun _ hx => congrArg (Line.mk _) hx.symm
  | nodelink => exact (eq_singleton_of_operandsFit h).imp' Instr.nodelink fun _ hx => congrArg (Line.mk _) hx.symm
  | info => exact (eq_singleton_of_operandsFit h).imp' Instr.info fun _ hx => congrArg (Line.mk _) hx.symm
  | decbit => exact (eq_singleton_of_operandsFit h).imp' Instr.decbit fun _ hx => congrArg (Line.mk _) hx.symm
  | decraw => exact (eq_singleton_of_operandsFit h).imp' Instr.decraw fun _ hx => congrArg (Line.mk _) hx.symm
  | load =>
    obtain ⟨sym, count, rfl⟩ := eq_pair_of_operandsFit h
    exact ⟨.load sym count, rfl⟩
  | readcode =>
    obtain ⟨sym, k, rfl⟩ := eq_pair_of_operandsFit h
    exact ⟨.readcode sym k, rfl⟩

theorem linesToInstrs_map_toLine (is : List Instr) : linesToInstrs (is.map Instr.toLine) = some is := by
  induction is with
  | nil => rfl
  | cons i is ih => rw [List.map_cons, linesToInstrs, toInstr_toLine, ih]

/-- A program that expands to the lines of commands assembles to their words (30_encoding R91, R92). -/
theorem assemble_of_expand {program : List Source} {is : List Instr}
    (h : program.flatMap Source.expand = is.map Instr.toLine) : assemble program = some (is.map encode) := by
  rw [assemble, h, linesToInstrs_map_toLine]

/-- Settles O7: a well-formed line is the line of a command, and an ill-formed one is turned down. -/
theorem wellFormedLinesAssemble : Obligations.WellFormedLinesAssemble := by
  refine fun l => ⟨fun h => ?_, fun h => ?_⟩
  · obtain ⟨i, rfl⟩ := exists_toLine_eq h
    exact ⟨i, toInstr_toLine i, rfl, assemble_of_expand (is := [i]) rfl, decode_encode i⟩
  · have hnone : l.toInstr = none := by rw [Line.toInstr, h, if_neg Bool.false_ne_true]
    refine ⟨hnone, ?_⟩
    rw [assemble, show [Source.line l].flatMap Source.expand = [l] from rfl, linesToInstrs, hnone]

theorem expandChars_eq (chars : List Byte) : expandChars chars = (chars.map Instr.decbit).map Instr.toLine := by
  rw [List.map_map]
  rfl

/-- Settles O8: each pseudo-command expands to the lines of its commands. -/
theorem pseudoCommandsExpand : Obligations.PseudoCommandsExpand := by
  refine ⟨⟨rfl, rfl, rfl, rfl, rfl, rfl⟩, fun chars => ⟨?_, ?_⟩, fun pairs => ?_⟩
  · rw [assemble_of_expand (is := chars.map Instr.decbit), List.map_map]
    · rfl
    · rw [← expandChars_eq]
      exact List.append_nil _
  · rw [assemble_of_expand (is := .decstart :: (chars.map Instr.decbit ++ [.decend])), List.map_cons, List.map_append,
      List.map_map]
    · rfl
    · rw [List.map_cons, List.map_append, ← expandChars_eq]
      exact List.append_nil _
  · rw [assemble_of_expand (is := pairs.map fun p => .load p.1 p.2), List.map_map]
    · rfl
    · rw [List.map_map]
      exact (List.append_nil _).trans (List.map_map ..)

end Sys2Proof.Machine
end

section
/-!
PROOFS. What the response of a command shows (30_encoding R85, R86, 60_exceptions R201), and that no command reads the
channel or, where it only reads, writes anything but the channel.
-/

namespace Sys2Proof.Machine

/-! The response -/

/-- No command but for its response touches the channel. -/
theorem Success.chan_eq {s u : State} {i : Instr} {d : Word} (h : Success s i u d) : u.chan = s.chan := by
  cases h <;> rfl

/-- A command ends with a response, with its own opcode, over the channel as it was. -/
theorem Ended.exists_reply {s t : State} {i : Instr} (h : Ended s i t) :
    ∃ u e d, t = State.reply u i.mnemonic.opcode e d ∧ u.chan = s.chan := by
  cases h with
  | quiet | invalidBit | truncated => exact ⟨_, _, _, rfl, rfl⟩
  | success u d hs => exact ⟨_, _, _, rfl, hs.chan_eq⟩

theorem Ended.chan_eq {s t : State} {i : Instr} (h : Ended s i t) :
    t.chan = { s.chan with busy := false, rspv := true, rsp := t.chan.rsp, data := t.chan.data } := by
  obtain ⟨u, e, d, rfl, hchan⟩ := h.exists_reply
  rw [← hchan]
  rfl

/-- Settles O25: the commands and the other words end with the same response word, opcode, zeros and code. -/
theorem responseWordFormat : Obligations.ResponseWordFormat := by
  refine ⟨fun i s t h => ?_, fun s hs => ?_⟩
  · have hdata := (exec_cases h).data_eq_zero_of_error
    obtain ⟨u, e, d, rfl, -⟩ := (exec_cases h).exists_reply
    exact ⟨rfl, rfl, (responseWord_opcode _ _).trans (opcodeField_append _ _).symm, responseWord_reserved _ _, hdata⟩
  · exact ⟨_, runCommand_of_not_fetched hs, rfl, rfl, responseWord_opcode _ _, responseWord_reserved _ _,
      responseWord_code _ _, rfl⟩

theorem Ended.errOf_mem {s t : State} {i : Instr} (h : Ended s i t) :
    errOf t = 0 ∨ errOf t ∈ allowedErrors i.mnemonic := by
  cases h with
  | quiet e hq =>
    obtain ⟨-, -, -, hmem⟩ := hq
    exact .inr (errOf_reply .. ▸ hmem)
  | invalidBit ch hi =>
    subst hi
    exact .inr (errOf_reply .. ▸ show errorNumber .invalidBit ∈ allowedErrors .decbit by decide)
  | truncated hi =>
    subst hi
    exact .inr (errOf_reply .. ▸ show errorNumber .truncatedStream ∈ allowedErrors .decend by decide)
  | success u d => exact .inl (errOf_reply ..)

/-- Settles O26: the codes by how each command can end. -/
theorem errorsPerCommand : Obligations.ErrorsPerCommand := fun _ _ _ h => (exec_cases h).errOf_mem

/-! Other contents of the channel (10_state R38) -/

/-- `s` with another channel. -/
def State.withChan (s : State) (c : Channel) : State := { s with chan := c }

/-- The outcome `r`, its response offered on the channel `c`. -/
def Result.onChannel (c : Channel) (r : Result) : Result :=
  match r with
  | .next t => .next (t.withChan { c with busy := false, rspv := true, rsp := t.chan.rsp, data := t.chan.data })
  | .fault f => .fault f
  | .refused f => .refused f

theorem ite_onChannel (c : Channel) (p : Prop) [Decidable p] (r r' : Result) :
    Result.onChannel c (if p then r else r') = if p then r.onChannel c else r'.onChannel c :=
  apply_ite (Result.onChannel c) p r r'

theorem walkStep_withChan (s : State) (c : Channel) (m : Mnemonic) (dir : Bool) :
    walkStep m dir (s.withChan c) = Result.onChannel c (walkStep m dir s) := by
  simp only [walkStep, ite_onChannel]
  rfl

/-- Every command chooses by the state beside the channel, and offers its response on whatever channel there is. -/
theorem exec_withChan (i : Instr) (s : State) (c : Channel) :
    exec i (s.withChan c) = Result.onChannel c (exec i s) := by
  cases i with
  | nop | clear => rfl
  | load | build | decstart | decroot | decend =>
    simp only [exec, execLoad, execBuild, execDecstart, execDecroot, execDecend, ite_onChannel]
    rfl
  | gencodes =>
    have htraverse : traverse (s.withChan c) = traverse s := rfl
    simp only [exec, execGencodes, ite_onChannel, htraverse]
    cases traverse s <;> rfl
  | lookup sym | readcode sym k =>
    have hentry : codeEntry sym (s.withChan c) = codeEntry sym s := rfl
    simp only [exec, execLookup, execReadcode, hentry]
    cases codeEntry sym s <;> rfl
  | nodefreq idx | nodelink idx =>
    have hnode : validNode idx (s.withChan c) = validNode idx s := rfl
    simp only [exec, execNodefreq, execNodelink, hnode]
    cases validNode idx s <;> rfl
  | info sel =>
    have hregister : infoRegister sel (s.withChan c) = infoRegister sel s := rfl
    simp only [exec, execInfo, hregister]
    cases infoRegister sel s <;> rfl
  | decbit ch =>
    simp only [exec, execDecbit, ite_onChannel]
    cases digitOfChar ch with
    | none => rfl
    | some dir =>
      simp only [walkStep_withChan]
      rfl
  | decraw bit =>
    simp only [exec, execDecraw, ite_onChannel, walkStep_withChan]
    rfl

/-- Settles O19: with another channel a command answers the same on it. -/
theorem responseIgnoresChannel : Obligations.ResponseIgnoresChannel := fun i s _ c h =>
  (exec_withChan i s c).trans (congrArg (Result.onChannel c) h)

/-! The commands that read -/

/-- Settles O29: both read `codeEntry`, which is of `TV` and the table. -/
theorem lookupNeverReadsTree : Obligations.LookupNeverReadsTree := by
  intro i s u t hi h
  have hentry : ∀ sym, codeEntry sym { u with tv := s.tv, table := s.table } = codeEntry sym s := fun _ => rfl
  cases i with
  | lookup sym | readcode sym k =>
    simp only [exec, execLookup, execReadcode, hentry] at h ⊢
    cases hc : codeEntry sym s <;> rw [hc] at h <;> cases h <;> rfl
  | _ => simp [Instr.mnemonic] at hi

theorem Ended.sameBlock_of_read {s t : State} {i : Instr} (h : Ended s i t)
    (hi : i.mnemonic ∈ [Mnemonic.lookup, .readcode, .nodefreq, .nodelink, .info, .nop]) : SameBlock s t := by
  cases h with
  | quiet => rfl
  | invalidBit _ hi' | truncated hi' => simp [hi', Instr.mnemonic] at hi
  | success u d hs =>
    cases hs with
    | nop | lookup | readcode | nodefreq | nodelink | info => rfl
    | digitLeaf _ _ _ _ _ hd | digitInternal _ _ _ _ _ hd =>
      obtain ⟨_, rfl, -⟩ | ⟨_, rfl, -⟩ := hd <;> simp [Instr.mnemonic] at hi
    | _ => simp [Instr.mnemonic] at hi

/-- Settles O31: the state left differs in the channel alone, which the command does not read. -/
theorem readsHaveNoSideEffects : Obligations.ReadsHaveNoSideEffects := by
  intro i s hi
  obtain ⟨t, h⟩ := exists_exec_of_ne_gencodes (i := i) (fun e => by simp [e, Instr.mnemonic] at hi) s
  have hblock : SameBlock s t := (exec_cases h).sameBlock_of_read hi
  have ht : s.withChan t.chan = t := by
    rw [SameBlock] at hblock
    rw [← hblock]
    rfl
  have hagain := responseIgnoresChannel i s t t.chan h
  refine ⟨t, h, hblock, ?_⟩
  have hchan : ({ t.chan with busy := false, rspv := true } : Channel) = t.chan := by rw [(exec_cases h).chan_eq]
  rw [hchan] at hagain
  exact (congrArg (exec i) ht.symm).trans hagain

end Sys2Proof.Machine
end

section
/-!
PROOFS. The command channel edge by edge (30_encoding R80, R81): acceptance, latency, and the response offered and
taken.
-/

namespace Sys2Proof.Machine

/-! The edges of a block that is busy or idle -/

theorem step_of_count {s : State} (hrst : s.pins.rst = false) (hbusy : s.chan.busy = true) (hwait : s.chan.wait ≠ 0) :
    step s = .next s.popPins.countDown := by
  simp [step, edgeAction, hrst, hbusy, hwait]

theorem step_of_idle {s : State} (hrst : s.pins.rst = false) (hbusy : s.chan.busy = false)
    (hrspv : s.chan.rspv = false) (hvalid : s.pins.cmdValid = false) : step s = .next s.popPins := by
  simp [step, edgeAction, hrst, hbusy, hrspv, hvalid]

theorem runCommand_of_fetched {s : State} {i : Instr} (h : s.fetched = .ok i) : runCommand s = exec i s := by
  rw [runCommand, h]

/-- Settles O18: the idle edge takes the edge's inputs and nothing else. -/
theorem idleBlockKeepsItsState : Obligations.IdleBlockKeepsItsState := fun _ hbusy hrspv hrst hvalid =>
  step_of_idle hrst hbusy hrspv hvalid

/-- Settles O9: the edge that ends the latency decodes the sampled words, which the edge's inputs do not touch. -/
theorem stepRunsDecodedCommand : Obligations.StepRunsDecodedCommand := fun _ _ hrst hbusy hwait h =>
  (step_of_perform hrst hbusy hwait).trans (runCommand_of_fetched h)

theorem pins_withFetchWord_rst (s : State) (nbits w : Nat) : (s.withFetchWord nbits w).pins.rst = false := by
  rw [State.pins, State.withFetchWord, State.loadWord]
  cases s.chan.host <;> rfl

theorem decode_of_decodeTableWord {nbits w : Nat} {i : Instr} (h : decodeTableWord nbits w = some i) :
    decode (tableCmd nbits w) (tableArg nbits w) = .ok i := by
  rw [decodeTableWord] at h
  split at h
  · next hd => rw [hd, Option.some.inj h]
  · cases h

/-- Settles O10: the word placed is a command in flight with no cycle left. -/
theorem stepRunsFetchedWord : Obligations.StepRunsFetchedWord := fun s nbits w _ h =>
  ⟨stepRunsDecodedCommand _ _ (pins_withFetchWord_rst s nbits w) rfl rfl (decode_of_decodeTableWord h), rfl⟩

/-! A response offered -/

section
variable {s : State} (hrst : s.pins.rst = false) (hrspv : s.chan.rspv = true)
include hrst hrspv

theorem takenResponse_of_held :
    s.takenResponse = if s.pins.rspReady then some (s.chan.rsp, s.chan.data) else none := by
  rw [State.takenResponse, ports_of_rst_low s hrst, hrspv]
  rfl

variable (hbusy : s.chan.busy = false)
include hbusy

theorem step_of_take (hready : s.pins.rspReady = true) : step s = .next s.popPins.takeResponse := by
  simp [step, edgeAction, hrst, hbusy, hrspv, hready]

theorem step_of_hold (hready : s.pins.rspReady = false) : step s = .next s.popPins := by
  simp [step, edgeAction, hrst, hbusy, hrspv, hready]

end

/-- A command performed, or words that are none answered, leave the sampled words and the count of acceptances. -/
theorem chan_of_runCommand {s t : State} (h : runCommand s = .next t) :
    t.chan = { s.chan with busy := false, rspv := true, rsp := t.chan.rsp, data := t.chan.data } := by
  obtain ⟨i, -, hrun⟩ | ⟨e, -, hrun⟩ := runCommand_cases s
  · exact (exec_cases (hrun.symm.trans h)).chan_eq
  · cases hrun.symm.trans h
    rfl

/-- While `BUSY` or `RSPV` is 1 an edge without `rst` accepts nothing (30_encoding R81). -/
theorem sampled_of_step {s t : State} (hrst : s.pins.rst = false) (hheld : s.chan.busy = true ∨ s.chan.rspv = true)
    (h : step s = .next t) :
    t.chan.cmd = s.chan.cmd ∧ t.chan.arg = s.chan.arg ∧ t.chan.accepted = s.chan.accepted := by
  by_cases hbusy : s.chan.busy = true
  · by_cases hwait : s.chan.wait = 0
    · rw [chan_of_runCommand ((step_of_perform hrst hbusy hwait).symm.trans h)]
      exact ⟨rfl, rfl, rfl⟩
    · cases (step_of_count hrst hbusy hwait).symm.trans h
      exact ⟨rfl, rfl, rfl⟩
  · have hbusy : s.chan.busy = false := Bool.eq_false_iff.2 hbusy
    have hrspv : s.chan.rspv = true := hheld.resolve_left (by simp [hbusy])
    cases hready : s.pins.rspReady with
    | true =>
      cases (step_of_take hrst hrspv hbusy hready).symm.trans h
      exact ⟨rfl, rfl, rfl⟩
    | false =>
      cases (step_of_hold hrst hrspv hbusy hready).symm.trans h
      exact ⟨rfl, rfl, rfl⟩

/-- Settles O14: the ports by their equations, the edges one by one. -/
theorem nothingAcceptedWhileBusyOrHeld : Obligations.NothingAcceptedWhileBusyOrHeld := by
  intro s hrst
  rw [ports_of_rst_low s hrst]
  refine ⟨by simp, rfl, fun h => if_pos h, fun h => if_neg (by simp [h]), fun hheld t => sampled_of_step hrst hheld,
    fun hbusy hrspv => ⟨fun hready => ⟨?_, step_of_take hrst hrspv hbusy hready⟩,
      fun hready => ⟨?_, step_of_hold hrst hrspv hbusy hready⟩⟩⟩
  · rw [takenResponse_of_held hrst hrspv, if_pos hready]
  · rw [takenResponse_of_held hrst hrspv, hready, if_neg Bool.false_ne_true]

/-! Runs of edges -/

theorem runEdges_succ {s t : State} (h : step s = .next t) (n : Nat) : runEdges (n + 1) s = runEdges n t := by
  rw [runEdges, h]

theorem runEdges_one (s : State) : runEdges 1 s = step s := by
  rw [runEdges]
  cases step s <;> rfl

/-- What silent inputs have, and every one the host drives at the first edges, the inputs of the next edge have. -/
theorem pins_of_forall {P : Pins → Prop} {s : State} {n : Nat} (hquiet : P quietPins)
    (h : ∀ p ∈ s.chan.host.take (n + 1), P p) : P s.pins := by
  rw [State.pins]
  cases hhost : s.chan.host with
  | nil => exact hquiet
  | cons p ps => exact h p (by simp [hhost])

/-- Settles O15: each edge takes its inputs off the host's list and holds the rest. -/
theorem responseHeldUntilTaken : Obligations.ResponseHeldUntilTaken := by
  intro n
  induction n with
  | zero => exact fun _ _ _ _ => rfl
  | succ n ih =>
    intro s hbusy hrspv hpins
    obtain ⟨hrst, hready⟩ := pins_of_forall (P := fun p => p.rst = false ∧ p.rspReady = false) ⟨rfl, rfl⟩ hpins
    have hrest : ∀ p ∈ s.popPins.chan.host.take n, p.rst = false ∧ p.rspReady = false := by
      rw [State.popPins_chan_host, ← Nat.add_sub_cancel n 1, ← List.tail_take_eq_take_tail]
      exact fun p hp => hpins p (List.mem_of_mem_tail hp)
    rw [runEdges_succ (step_of_hold hrst hrspv hbusy hready), ih s.popPins hbusy hrspv hrest, State.popPins_chan_host,
      List.drop_tail]
    rfl

/-- `n` edges lead from `s` to `t`, and at none of them a response is taken. -/
def Silent (n : Nat) (s t : State) : Prop :=
  runEdges n s = .next t ∧ ∀ k, observe (n + k) s = observe k t

theorem Silent.refl (s : State) : Silent 0 s s := ⟨rfl, fun k => by rw [Nat.zero_add]⟩

theorem Silent.step {n : Nat} {s t u : State} (h : Machine.step s = .next t) (hrspv : s.chan.rspv = false)
    (ht : Silent n t u) : Silent (n + 1) s u := by
  obtain ⟨hrun, hobserve⟩ := ht
  refine ⟨(runEdges_succ h n).trans hrun, fun k => ?_⟩
  rw [Nat.add_right_comm, observe, takenResponse_of_not_held hrspv, h]
  exact hobserve k

theorem Silent.trans {n m : Nat} {s t u : State} (h : Silent n s t) (h' : Silent m t u) : Silent (n + m) s u :=
  ⟨(runEdges_add n m h.1).trans h'.1, fun k => by rw [Nat.add_assoc, h.2, h'.2]⟩

/-- The latency of a command in flight goes by, whatever the host drives but `rst` (30_encoding R81). -/
theorem silent_countDown {s : State} {ps rest : List Pins} (hbusy : s.chan.busy = true) (hrspv : s.chan.rspv = false)
    (hhost : s.chan.host = ps ++ rest) (hwait : ps.length = s.chan.wait) (hps : ∀ q ∈ ps, q.rst = false) :
    Silent ps.length s { s with chan := { s.chan with wait := 0, host := rest } } := by
  induction ps generalizing s with
  | nil =>
    have hsame : ({ s with chan := { s.chan with wait := 0, host := rest } } : State) = s := by
      rw [← show s.chan.host = rest from hhost, show 0 = s.chan.wait from hwait]
    rw [hsame]
    exact .refl s
  | cons p ps ih =>
    obtain ⟨hp, hps⟩ := List.forall_mem_cons.1 hps
    have hrst : s.pins.rst = false := by
      rw [State.pins, hhost]
      exact hp
    have hcount := step_of_count hrst hbusy (hwait ▸ Nat.succ_ne_zero ps.length)
    refine .step hcount hrspv (ih (s := s.popPins.countDown) hbusy hrspv ?_ ?_ hps)
    · rw [State.countDown_chan_host, State.popPins_chan_host, hhost]
      rfl
    · rw [State.countDown_chan_wait, State.popPins_chan_wait, ← hwait]
      rfl

/-- `s` with the command of the inputs `p` accepted and its latency gone by, the host to drive `host` from here on. -/
def State.dueCommand (s : State) (p : Pins) (host : List Pins) : State :=
  { s with
    chan := { s.chan with
      busy := true, cmd := p.cmdWord, arg := p.cmdArg, wait := 0
      accepted := s.chan.accepted + 1, host := host } }

/-- A command offered to an idle block is accepted, and `LAT - 1` edges later it is due (30_encoding R81). -/
theorem silent_accept {s : State} {p : Pins} {ps rest : List Pins} (hbusy : s.chan.busy = false)
    (hrspv : s.chan.rspv = false) (hhost : s.chan.host = p :: (ps ++ rest)) (hrst : p.rst = false)
    (hvalid : p.cmdValid = true) (hlat : ps.length + 1 = Config.latency s.chan.accepted)
    (hps : ∀ q ∈ ps, q.rst = false) : Silent (Config.latency s.chan.accepted) s (s.dueCommand p rest) := by
  have hpins : s.pins = p := by rw [State.pins, hhost, List.headD_cons]
  have haccept : step s = .next (s.popPins.accept p.cmdWord p.cmdArg) := by
    rw [step_of_offered hbusy hrspv (hpins ▸ hrst) (hpins ▸ hvalid), hpins]
  rw [← hlat]
  refine .step haccept hrspv (silent_countDown rfl hrspv ?_ ?_ hps)
  · rw [State.accept_chan_host, State.popPins_chan_host, hhost]
    rfl
  · rw [State.accept_chan_wait, State.popPins_chan_accepted, ← hlat]
    rfl

theorem exists_concat_of_length_eq_latency {ps : List Pins} {k : Nat} (h : ps.length = Config.latency k) :
    ∃ qs q, ps = qs ++ [q] ∧ qs.length + 1 = Config.latency k := by
  obtain rfl | ⟨qs, q, rfl⟩ := ps.eq_nil_or_concat
  · exact absurd h (Nat.succ_ne_zero _).symm
  · exact ⟨qs, q, List.concat_eq_append, by rw [← h, List.length_concat]⟩

theorem step_dueCommand (s : State) {p q : Pins} (rest : List Pins) (hq : q.rst = false) :
    step (s.dueCommand p (q :: rest)) = runCommand (s.dueCommand p rest) :=
  step_of_perform hq rfl rfl

/-- Settles O16: `LAT` edges lead to the command being due, and the next performs it. -/
theorem commandPerformsAfterLatency : Obligations.CommandPerformsAfterLatency := by
  intro s p ps rest hbusy hrspv hhost hrst hvalid hlat hps
  obtain ⟨qs, q, rfl, hqs⟩ := exists_concat_of_length_eq_latency hlat
  obtain ⟨hqs', hq⟩ := List.forall_mem_append.1 hps
  rw [List.append_assoc] at hhost
  obtain ⟨hrun, -⟩ := silent_accept hbusy hrspv hhost hrst hvalid hqs hqs'
  refine ⟨Nat.succ_le_succ (Nat.zero_le _), ?_⟩
  rw [runEdges_add _ 1 hrun, runEdges_one]
  exact step_dueCommand s rest (hq q (List.mem_singleton_self q))

/-- The edge that takes a response, and what is observed at it (30_encoding R81). -/
theorem observe_take {t : State} {r : Pins} {rest : List Pins} (hbusy : t.chan.busy = false)
    (hrspv : t.chan.rspv = true) (hhost : t.chan.host = r :: rest) (hrst : r.rst = false) (hready : r.rspReady = true) :
    observe 1 t = [(t.chan.rsp, t.chan.data)] ∧
      runEdges 1 t = .next { t with chan := { t.chan with busy := false, rspv := false, host := rest } } := by
  have hpins : t.pins = r := by rw [State.pins, hhost, List.headD_cons]
  have htake := step_of_take (hpins ▸ hrst) hrspv hbusy (hpins ▸ hready)
  constructor
  · rw [observe, takenResponse_of_held (hpins ▸ hrst) hrspv, hpins, if_pos hready, htake]
    rfl
  · rw [runEdges_one, htake]
    simp only [State.takeResponse, State.popPins, hhost, List.tail_cons, hbusy]

/-- Settles O17: nothing is taken until the command is performed, and the edge after that takes its response. -/
theorem handshakeGivesOneResponse : Obligations.HandshakeGivesOneResponse := by
  intro s t p r ps rest hbusy hrspv hhost hrst hvalid hlat hps hr hready hperform
  obtain ⟨qs, q, rfl, hqs⟩ := exists_concat_of_length_eq_latency hlat
  obtain ⟨hqs', hq⟩ := List.forall_mem_append.1 hps
  rw [List.append_assoc] at hhost
  have hdue := silent_accept hbusy hrspv hhost hrst hvalid hqs hqs'
  have hstep := (step_dueCommand s (r :: rest) (hq q (List.mem_singleton_self q))).trans hperform
  obtain ⟨hrun, hobserve⟩ := hdue.trans (.step hstep hrspv (.refl t))
  have hchan := chan_of_runCommand hperform
  rw [hobserve 1, runEdges_add _ 1 hrun]
  exact observe_take (by rw [hchan]) (by rw [hchan]) (by rw [hchan]) hr hready

end Sys2Proof.Machine
end

section
/-!
PROOFS. The reset values (70_reset_and_hazards R230), and the heap's two operations as 40_builder R103 to R105 state
them.
-/

namespace Sys2Proof.Machine

/-- Settles O13: each item, the flags by what a cleared vector reads. -/
theorem resetStateHasSpecValues : Obligations.ResetStateHasSpecValues :=
  ⟨rfl, rfl, rfl, rfl, rfl, flagAt_replicate false, rfl, flagAt_replicate false, rfl, rfl, rfl, rfl, rfl, rfl⟩

/-- Settles O44: the order by the sifting up, the contents by its being a rearrangement. -/
theorem heapInsertKeepsOrder : Obligations.HeapInsertKeepsOrder := fun a x h hsize hord hx =>
  ⟨heapInsert_ordered hsize hord hx, heapInsert_perm a x h hsize⟩

/-- Settles O45: the contents by the sifting down's being a rearrangement, the least key at the root of an ordered heap,
the order by the sifting down. -/
theorem heapExtractTakesLeast : Obligations.HeapExtractTakesLeast := fun a h h1 h2 hord hnodup =>
  ⟨heapExtract_perm a h h1 h2, fun _ => heapExtract_keyLt h1 h2 hord hnodup, heapExtract_ordered h1 h2 hord hnodup⟩

end Sys2Proof.Machine
end
